-- ==== Sys2Proof/Word.lean ====
section
/-! DEFINITION. The word types of the spec: data bytes, command words, codewords, 32-bit operands. -/

namespace Sys2Proof

/-- A payload byte, 8 bits unsigned (00_scope.md R6 `DATA_BITS`, R14 "Byte"). -/
abbrev Byte := BitVec 8

/-- A command word, 16 bits: `OPC` [15:12], `IMM` [11:0] (30_encoding.md R70). -/
abbrev CmdWord := BitVec 16

/-- A codeword, 12 bits, position 0 in bit 11 (00_scope.md R6 `CW_BITS`; 30_encoding.md R61). -/
abbrev Codeword := BitVec 12

/-- A signed 32-bit operand, two's complement; comparisons read it by `BitVec.toInt` (00_scope.md R11). -/
abbrev Signed32 := BitVec 32

end Sys2Proof
end

