-- ==== Sys2Proof/Config.lean ====
section
/-! DEFINITION. What an implementation fixes (the parameters of 00_scope.md R7) and the free values the spec leaves open. -/

namespace Sys2Proof

/-- The carrier of the type `Channel` of 00_scope.md R7 (D28). DESIGN CHOICE (log 4): handles are natural numbers, with which no
operation of the model does anything but compare. WHICH handles are values of the type is an argument of the model,
`Params.channels`. -/
structure Channel where
  handle : Nat
deriving DecidableEq, Repr

/-- The parameters of 00_scope.md R7 that a model takes as arguments, and the channels the sink can make outputs
(70_reset_and_hazards.md R169). They stand in `State.params`, no step writes them, and statements hold for
every value of them (log 3). -/
structure Params where
  /-- `GAP_MS`, the inter-frame gap in milliseconds (R7, D12). -/
  gapMs : Nat
  /-- `GAP_AFTER_LAST`, whether a gap follows the last frame of a repeat too (R7, D11). -/
  gapAfterLast : Bool
  /-- `MAX_MSG_LEN`; `none` is unbounded (R7, D10; 20_memory.md R48). -/
  maxMsgLen : Option Nat
  /-- The type `Channel` as R7's argument: the handles that are its values; `none` is every handle (R7, D28; log 4). -/
  channels : Option (List Channel)
  /-- The channels the sink can make outputs; `none` is every channel (R169, D28). -/
  outputs : Option (List Channel)
deriving DecidableEq, Repr

/-- The "spec value" column of 00_scope.md R7. DESIGN CHOICE (log 3, log 4): every handle is a channel
(R7: "any") and every channel a valid output, of which the spec's examples name no exception. -/
def Params.spec : Params :=
  { gapMs := 300, gapAfterLast := false, maxMsgLen := none, channels := none, outputs := none }

/-! DESIGN CHOICE (log 6, log 7, log 9, log 15): a free value is drawn at a counter that the step reads and advances. Two draws at
different counts are unrelated; in a `System` all instances draw at one counter, so no two draws of its instances are related. Two
STATES compared apart, with equal counters, draw equal values: that tie is the model's, the spec relates no two draws. -/

/-- FREE VALUE (log 6): `INITIAL_LEVEL`, the level the line takes at the n-th draw, when `ConfigureAsOutput` reaches
the sink (00_scope.md R7; 10_state.md R33; 93_implementation_defined.md U7). It has no body: nothing can be proved of it. -/
opaque Config.initialLevel : Nat → Bool

/-- FREE VALUE (log 7): the milliseconds that had passed in a `Sleep` when reset cut it short, before the bound by the
`Sleep`'s own length (70_reset_and_hazards.md R166; 93_implementation_defined.md U16). It has no body. -/
opaque Config.sleptBeforeReset : Nat → Nat

/-- FREE VALUE (log 9): what the sequencer takes where `BIT_DURATION` is unwritten, which no run reaches (10_state.md R34;
93_implementation_defined.md U9). It has no body. -/
opaque Config.unwrittenDuration : Nat → BitVec 10

/-- FREE VALUE (log 9): what the sequencer takes where `CW` is unwritten in phase DATA, which no run reaches. It has no body. -/
opaque Config.unwrittenCodeword : Nat → Codeword

/-- FREE VALUE (log 9): what the sequencer takes where `EMIT_V` is unwritten in phase SINGLE, which no run reaches. It has no body. -/
opaque Config.unwrittenLevel : Nat → Bool

end Sys2Proof
end

