-- ==== Sys2Proof/Syntax.lean ====
section
/-! DEFINITION. The commands (one constructor per row of spec/opcode_table.json), the operand ports, and the abstract
syntax of the assembler's lines (30_encoding.md R77 to R79). -/

namespace Sys2Proof

/-- A decoded command: the operation with its operand from `IMM` (30_encoding.md R73). Operands on ports are not part
of the word (R71): a meaning reads them from the ports. -/
inductive Instr where
  /-- CONFIGURE (41_transmitter.md R100). -/
  | configure
  /-- ENCODE, `byte = IMM[7:0]` (40_encoder.md R87). -/
  | encode (byte : Byte)
  /-- EMIT_SYMBOL, `v = IMM[0]` (41_transmitter.md R103). -/
  | emitSymbol (v : Bool)
  /-- TRANSMIT_ONCE (41_transmitter.md R105). -/
  | transmitOnce
  /-- TRANSMIT_REPEATED (41_transmitter.md R109). -/
  | transmitRepeated
deriving DecidableEq, Repr

/-- The five operations of 30_encoding.md R72, without operands: what the checks of 60_exceptions.md R148 depend on. -/
inductive Op where
  | configure
  | encode
  | emitSymbol
  | transmitOnce
  | transmitRepeated
deriving DecidableEq, Repr

/-- The operation of a command. -/
def Instr.op : Instr → Op
  | .configure => .configure
  | .encode _ => .encode
  | .emitSymbol _ => .emitSymbol
  | .transmitOnce => .transmitOnce
  | .transmitRepeated => .transmitRepeated

/-- What the host drives on the operand ports (30_encoding.md R71). -/
structure Ports where
  /-- `OP_CHANNEL`, used by CONFIGURE. -/
  channel : Channel
  /-- `OP_RATE`, used by CONFIGURE. -/
  rate : Signed32
  /-- `OP_MSG`, used by TRANSMIT_ONCE and TRANSMIT_REPEATED. -/
  msg : List Byte
  /-- `OP_COUNT`, used by TRANSMIT_REPEATED. -/
  count : Signed32
deriving DecidableEq, Repr

/-- Ports on which the host drives nothing in particular. DESIGN CHOICE (log 2): zeros and the empty message. -/
def Ports.idle : Ports := { channel := ⟨0⟩, rate := 0, msg := [], count := 0 }

/-- A command as the host presents it: the word and the ports (30_encoding.md R70). -/
structure Command where
  word : CmdWord
  ports : Ports
deriving DecidableEq, Repr

/-- A message as an assembler line writes it (30_encoding.md R79): a byte list, or the characters between the quotes of
a string literal, escapes not yet read. -/
inductive AsmMessage where
  | bytes (values : List Nat)
  | literal (chars : List Char)
deriving DecidableEq, Repr

/-- A line of the assembler (30_encoding.md R77). A CONFIGURE may leave its rate out (R78). Numbers are as written; the
ranges are checked in WellFormed. -/
inductive AsmLine where
  | configure (channel : Channel) (rate : Option Int)
  | encode (byte : Nat)
  | emitSymbol (v : Nat)
  | transmitOnce (message : AsmMessage)
  | transmitRepeated (message : AsmMessage) (count : Int)
deriving DecidableEq, Repr

end Sys2Proof
end

