-- ==== Sys2Proof/WellFormed.lean ====
section
/-! DEFINITION. What is well formed: a command word (30_encoding.md R74) and an assembler line (R77, R79). An `Instr` needs
no check: its operands have exactly the widths of R73, so every term of the type is a command the spec has. -/

namespace Sys2Proof

/-- `OPC`, bits [15:12] of a command word (30_encoding.md R70). -/
def opcField (w : CmdWord) : BitVec 4 := w.extractLsb' 12 4

/-- `IMM`, bits [11:0] of a command word (30_encoding.md R70). -/
def immField (w : CmdWord) : BitVec 12 := w.extractLsb' 0 12

/-- A word is legal when its `OPC` is not reserved (30_encoding.md R72) and every `IMM` bit that R73 does not name as an
operand is 0 (R74). Written on the fields, apart from the match and mask pairs the decoder uses. -/
def wordLegal (w : CmdWord) : Bool :=
  match (opcField w).toNat with
  | 0x1 => immField w == 0
  | 0x2 => (immField w).extractLsb' 8 4 == 0
  | 0x3 => (immField w).extractLsb' 1 11 == 0
  | 0x4 => immField w == 0
  | 0x5 => immField w == 0
  | _ => false

/-- A signed 32-bit operand's range, -2^31 to 2^31 - 1 (30_encoding.md R77). -/
def inSigned32 (n : Int) : Bool := decide (-2147483648 ≤ n) && decide (n ≤ 2147483647)

/-- `"`, which a string literal escapes (30_encoding.md R79). -/
def quoteChar : Char := Char.ofNat 0x22

/-- The escape character of a string literal (30_encoding.md R79). -/
def backslashChar : Char := Char.ofNat 0x5C

/-- The value of a hexadecimal digit, upper or lower case. -/
def hexDigit? (c : Char) : Option Nat :=
  if 0x30 ≤ c.toNat ∧ c.toNat ≤ 0x39 then some (c.toNat - 0x30)
  else if 0x41 ≤ c.toNat ∧ c.toNat ≤ 0x46 then some (c.toNat - 0x37)
  else if 0x61 ≤ c.toNat ∧ c.toNat ≤ 0x66 then some (c.toNat - 0x57)
  else none

/-- A character a literal may hold as itself: printable ASCII, 0x20 to 0x7E, except the quote and the backslash
(30_encoding.md R79). -/
def plainChar (c : Char) : Bool :=
  decide (0x20 ≤ c.toNat) && decide (c.toNat ≤ 0x7E) && !(c == quoteChar) && !(c == backslashChar)

/-- The characters of a string literal are well formed: each is plain or part of one of the three escapes of
30_encoding.md R79. -/
def literalWellFormed : List Char → Bool
  | [] => true
  | c :: rest =>
    if c == backslashChar then
      match rest with
      | [] => false
      | e :: rest' =>
        if e == quoteChar || e == backslashChar then literalWellFormed rest'
        else if e == 'x' then
          match rest' with
          | h :: l :: rest'' =>
            (hexDigit? h).isSome && (hexDigit? l).isSome && literalWellFormed rest''
          | _ => false
        else false
    else plainChar c && literalWellFormed rest

/-- A message's bytes are 0 to 255 each, or its literal is well formed (30_encoding.md R79). -/
def AsmMessage.wellFormed : AsmMessage → Bool
  | .bytes values => values.all fun b => decide (b ≤ 255)
  | .literal chars => literalWellFormed chars

/-- An assembler line with every number in its range (30_encoding.md R77). -/
def AsmLine.wellFormed : AsmLine → Bool
  | .configure _ none => true
  | .configure _ (some rate) => inSigned32 rate
  | .encode byte => decide (byte ≤ 255)
  | .emitSymbol v => decide (v ≤ 1)
  | .transmitOnce message => message.wellFormed
  | .transmitRepeated message count => message.wellFormed && inSigned32 count

end Sys2Proof
end

