-- ==== Sys2Proof/Decode.lean ====
section
/-! DEFINITION. The command decoder (30_encoding.md R72 to R75), total over all 16-bit words, and the encoder beside it. -/

namespace Sys2Proof

/-- Every operation, in the order of 30_encoding.md R72. -/
def Op.all : List Op := [.configure, .encode, .emitSymbol, .transmitOnce, .transmitRepeated]

/-- The `match` column of 30_encoding.md R73. -/
def Op.matchBits : Op → CmdWord
  | .configure => 0x1000
  | .encode => 0x2000
  | .emitSymbol => 0x3000
  | .transmitOnce => 0x4000
  | .transmitRepeated => 0x5000

/-- The `mask` column of 30_encoding.md R73. -/
def Op.maskBits : Op → CmdWord
  | .configure => 0xFFFF
  | .encode => 0xFF00
  | .emitSymbol => 0xFFFE
  | .transmitOnce => 0xFFFF
  | .transmitRepeated => 0xFFFF

/-- "A word `w` selects an operation exactly when `(w & mask) == match`" (30_encoding.md R73). -/
def Op.selectedBy (o : Op) (w : CmdWord) : Bool := (w &&& o.maskBits) == o.matchBits

/-- The operation a word selects; `none` is an illegal word (30_encoding.md R74, R75). -/
def decodeOp (w : CmdWord) : Option Op := Op.all.find? fun o => o.selectedBy w

/-- The operation with its operand from `IMM`, neither extended, scaled nor shifted (30_encoding.md R73). -/
def Op.withOperand (o : Op) (w : CmdWord) : Instr :=
  match o with
  | .configure => .configure
  | .encode => .encode (w.extractLsb' 0 8)
  | .emitSymbol => .emitSymbol (w.getLsbD 0)
  | .transmitOnce => .transmitOnce
  | .transmitRepeated => .transmitRepeated

/-- The decoder: total over all 65,536 words (30_encoding.md R75). `none` is an illegal word, which the block rejects with
ILLEGAL_COMMAND (R74; 60_exceptions.md R141). -/
def decode (w : CmdWord) : Option Instr := (decodeOp w).map fun o => o.withOperand w

/-- The encoder: the word of a command, from the `OPC` values of 30_encoding.md R72 and the operand places of R73. -/
def encode : Instr → CmdWord
  | .configure => 0x1#4 ++ 0#12
  | .encode byte => 0x2#4 ++ 0#4 ++ byte
  | .emitSymbol v => 0x3#4 ++ 0#11 ++ BitVec.ofBool v
  | .transmitOnce => 0x4#4 ++ 0#12
  | .transmitRepeated => 0x5#4 ++ 0#12

/-- The word that `nbits` bits `w`, numbered as spec/opcode_table.json numbers them, give: the word's bits above `nbits`
are 0. There is no byte order to choose: the word is presented whole on the command port (log 14). -/
def tableWord (nbits w : Nat) : CmdWord := BitVec.ofNat 16 (w % 2 ^ nbits)

/-- What the decoder reads from `nbits` bits `w` of the opcode table. No command is longer than 16 bits (30_encoding.md R76). -/
def decodeTableWord (nbits w : Nat) : Option Instr :=
  if nbits ≤ 16 then decode (tableWord nbits w) else none

end Sys2Proof
end

