-- ==== Sys2Proof/Machine/State.lean ====
section
/-! DEFINITION. The state of one LedP-TX instance with its sink and its host, as plain data; the reasons a step can stop;
the state at power-on. -/

namespace Sys2Proof.Machine

/-- The part of the operation in progress (10_state.md R30). -/
inductive Phase where
  | idle
  | single
  | pre
  | data
  | post
  | gap
  | tailGap
deriving DecidableEq, Repr

/-- Whether the next event is the symbol's `SetLevel` or its `Sleep` (10_state.md R30). -/
inductive Sub where
  | level
  | wait
deriving DecidableEq, Repr

/-- The line level `LINE`, held by the sink: unknown, or a level (10_state.md R33). -/
inductive Line where
  | unknown
  | level (v : Bool)
deriving DecidableEq, Repr

/-- The events the block sends the sink (00_scope.md R10). -/
inductive Event where
  /-- `ConfigureAsOutput(ch)`: make channel `ch` a binary output. -/
  | configureAsOutput (channel : Channel)
  /-- `SetLevel(ch, v)`: drive channel `ch` to level `v`. -/
  | setLevel (channel : Channel) (v : Bool)
  /-- `Sleep(ms)`: hold the current state for `ms` milliseconds. -/
  | sleep (ms : Nat)
deriving DecidableEq, Repr

/-- The faults with which the block rejects a command (60_exceptions.md R140). The machine goes on after one: it is
recorded in `FAULT` (R144), and is no `Fault` of the model. -/
inductive CmdFault where
  | illegalCommand
  | busyViolation
  | notConfigured
  | alreadyConfigured
  | msgTooLong
deriving DecidableEq, Repr

/-- What the host does next (60_exceptions.md R161). The list of moves to come is the model's own (log 1): the spec lets
the host act at any time, and the list says when it does. -/
inductive HostMove where
  /-- The host issues a command with its ports (30_encoding.md R70). -/
  | command (c : Command)
  /-- The host asserts reset between two steps of the block (70_reset_and_hazards.md R165). -/
  | reset
  /-- The host asserts reset during the block's next step where that step is a `Sleep`, else between two steps
  (70_reset_and_hazards.md R165, R166). -/
  | resetInSleep
  /-- The host reads STATUS (10_state.md R23). -/
  | readStatus
  /-- The host reads `ENC_RESULT` (10_state.md R28). -/
  | readEncResult
  /-- The host lets the block take one step. -/
  | yield
  /-- The host polls STATUS until `BUSY = 0` (70_reset_and_hazards.md R168). -/
  | awaitIdle
deriving DecidableEq, Repr

/-- A value the host has read (00_scope.md R13). -/
inductive HostRead where
  | status (value : BitVec 8)
  | encResult (value : BitVec 16)
deriving DecidableEq, Repr

/-- A read of a register that nothing has written since reset. 93_implementation_defined.md's treatment of it is `fault`, which it
explains as "record a fault, never final": the read is recorded and the machine goes on (10_state.md R34, U8, U9; log 9). -/
inductive UnwrittenRead where
  /-- The host read `ENC_RESULT` before the first ENCODE: "a read of nothing" (R34, U8). -/
  | encResult
  /-- The sequencer took `BIT_DURATION` unwritten. No run reaches it (R34, U9; `State.Inv`). -/
  | bitDuration
  /-- The sequencer took `CW` unwritten in phase DATA. No run reaches it (R34, U9; `State.Inv`). -/
  | cw
  /-- The sequencer took `EMIT_V` unwritten in phase SINGLE. No run reaches it (R34, U9; `State.Inv`). -/
  | emitV
deriving DecidableEq, Repr

/-- Why a step stops with a fault of the model. -/
inductive Fault where
  /-- Raised by the sequencer where `CHANNEL` is none at a `SetLevel`: there is no channel to name in the event. No run reaches it
  (10_state.md R24: a timed operation needs `CFG_VALID = 1`; `State.Inv`). Safe. -/
  | channelNone
deriving DecidableEq, Repr

/-- Why the model gives a step no meaning. -/
inductive Refusal where
  /-- An instruction whose meaning is not written yet: raised by exec's arms alone. Safe. -/
  | notModelled (mnemonic : String)
  /-- Raised by a CONFIGURE that would be accepted with a channel the sink cannot make an output: "A model gives a run with an
  invalid channel no meaning (it refuses it)" (70_reset_and_hazards.md R169; U14). Safe. -/
  | channelNotConfigurable
  /-- Raised by a step of a system of instances after which two hold one channel: "a model must refuse the configuration
  rather than pick an interleaving" (70_reset_and_hazards.md R175; U15). Safe. -/
  | sharedChannel
deriving DecidableEq, Repr

/-- One LedP-TX instance (10_state.md R22, R30), its sink (R33; 00_scope.md R10) and its host. -/
@[ext]
structure State where
  /-- `CFG_VALID` (10_state.md R24). -/
  cfgValid : Bool
  /-- `CFG_ERR` (R26). -/
  cfgErr : Bool
  /-- `FAULT` (R27). -/
  fault : BitVec 4
  /-- `ENC_RESULT` (R28); `none` is the spec's "unwritten" (R34). -/
  encResult : Option (BitVec 16)
  /-- `CHANNEL` (R29); `none` is the spec's "none". -/
  channel : Option Channel
  /-- `BIT_DURATION` in milliseconds (R31); `none` is the spec's "unwritten" (R34). -/
  bitDuration : Option (BitVec 10)
  /-- `PHASE` (R30). -/
  phase : Phase
  /-- `K`, the symbol index within the preamble, the codeword or the postamble (R30). -/
  k : Nat
  /-- `CI`, the index of the current message byte (R30). -/
  ci : Nat
  /-- `CW`, the codeword being sent (R30); `none` is "unwritten" (R34). -/
  cw : Option Codeword
  /-- `REP`, frames still to send after the current one (R30). -/
  rep : Nat
  /-- `SUB` (R30). -/
  sub : Sub
  /-- `EMIT_V` (R30); `none` is "unwritten" (R34). -/
  emitV : Option Bool
  /-- `TRAIL` (R30). -/
  trail : Bool
  /-- `MSG`, the message latched at issue (R30; 20_memory.md R46). -/
  msg : List Byte
  /-- The trace: the events emitted since power-on, oldest first (00_scope.md R10). The sink's record. -/
  trace : List Event
  /-- `LINE`, the sink's (10_state.md R33). -/
  line : Line
  /-- Logical time passed since power-on, in milliseconds (00_scope.md R12; log 12). -/
  elapsed : Nat
  /-- How many free values have been drawn (log 6, log 7). The model's own. -/
  draws : Nat
  /-- The host's moves to come, next first (log 1). The model's own. -/
  hostMoves : List HostMove
  /-- What the host drives on the operand ports (30_encoding.md R71; log 2). No latch: what the block latches is in `msg`,
  `channel`, `bitDuration` and `rep`. -/
  ports : Ports
  /-- What the host has read, oldest first (00_scope.md R13; log 17). -/
  reads : List HostRead
  /-- The reads of unwritten registers so far, oldest first (93_implementation_defined.md U8, U9; log 9). The model's own. -/
  readFaults : List UnwrittenRead
  /-- The parameters (00_scope.md R7; log 3). No step writes them. -/
  params : Params
deriving DecidableEq, Repr

/-- The state right after power-on: the block's registers at the values of 10_state.md R38, the trace empty and the line
unknown as R38 says, the parameters at R7's spec values; the host has no move to make (log 1), drives idle ports (log 2) and
has read nothing, and no read of an unwritten register is on record (log 9). -/
def State.reset : State :=
  { cfgValid := false
    cfgErr := false
    fault := 0
    encResult := none
    channel := none
    bitDuration := none
    phase := .idle
    k := 0
    ci := 0
    cw := none
    rep := 0
    sub := .level
    emitV := none
    trail := false
    msg := []
    trace := []
    line := .unknown
    elapsed := 0
    draws := 0
    hostMoves := []
    ports := Ports.idle
    reads := []
    readFaults := []
    params := Params.spec }

end Sys2Proof.Machine
end

