-- ==== Sys2Proof/Machine/Codeword.lean ====
section
/-! DEFINITION. The codeword function as declarative tables (40_encoder.md R85, R95; 30_encoding.md R60, R63), its bit-slice
form (R86), and the functions the code's laws speak of: positions, syndrome, extraction, correction (R90, R94). -/

namespace Sys2Proof.Machine

/-- `pos(w, p)`: position `p` of a codeword, numbered from the most significant bit (00_scope.md R8). -/
def pos (w : Codeword) (p : Nat) : Bool := w.getMsbD p

/-- The data positions, each with the byte bit it holds (30_encoding.md R60). -/
def dataMap : List (Nat × Nat) :=
  [(2, 7), (4, 6), (5, 5), (6, 4), (8, 3), (9, 2), (10, 1), (11, 0)]

/-- The parity positions, each with the data positions it covers (30_encoding.md R63). -/
def coverMap : List (Nat × List Nat) :=
  [(0, [2, 4, 6, 8, 10]), (1, [2, 5, 6, 9, 10]), (3, [4, 5, 6, 11]), (7, [8, 9, 10, 11])]

/-- The exclusive-or of a list of bits. -/
def xorAll (bits : List Bool) : Bool := bits.foldl Bool.xor false

/-- The data bit of byte `b` at position `p` (30_encoding.md R60); false at a parity position. -/
def dataBit (b : Byte) (p : Nat) : Bool :=
  match dataMap.lookup p with
  | some i => b.getLsbD i
  | none => false

/-- `c[p]` of 40_encoder.md R85: at a parity position the exclusive-or of the covered data bits, else the data bit. -/
def codeBit (b : Byte) (p : Nat) : Bool :=
  match coverMap.lookup p with
  | some covered => xorAll (covered.map (dataBit b))
  | none => dataBit b p

/-- Packing positions 0 to 11 into 12 bits, position `p` at integer bit `11 - p` (30_encoding.md R61). -/
def packPositions (c : Nat → Bool) : Codeword :=
  (List.range 12).foldl (fun w p => w ||| (BitVec.ofBool (c p)).setWidth 12 <<< (11 - p)) 0

/-- `encode(b)` (40_encoder.md R85). -/
def hammingEncode (b : Byte) : Codeword := packPositions (codeBit b)

/-- `par(x)`: the exclusive-or of all 8 bits (40_encoder.md R86). -/
def parity8 (x : Byte) : Bool := xorAll ((List.range 8).map x.getLsbD)

/-- `encode(b)` written on integer bits (40_encoder.md R86). -/
def hammingSlices (b : Byte) : Codeword :=
  BitVec.ofBool (parity8 (b &&& 0xDA)) ++ BitVec.ofBool (parity8 (b &&& 0xB6)) ++ b.extractLsb' 7 1
    ++ BitVec.ofBool (parity8 (b &&& 0x71)) ++ b.extractLsb' 4 3
    ++ BitVec.ofBool (parity8 (b &&& 0x0F)) ++ b.extractLsb' 0 4

/-- One parity check over a received word: a parity position with the positions it covers (40_encoder.md R90). -/
def checkBit (r : Codeword) (parityPos : Nat) : Bool :=
  match coverMap.lookup parityPos with
  | some covered => xorAll ((parityPos :: covered).map (pos r))
  | none => false

/-- `S(r) = {s3, s2, s1, s0}` (40_encoder.md R90). -/
def syndrome (r : Codeword) : BitVec 4 :=
  BitVec.ofBool (checkBit r 7) ++ BitVec.ofBool (checkBit r 3) ++ BitVec.ofBool (checkBit r 1)
    ++ BitVec.ofBool (checkBit r 0)

/-- A word with position `p` inverted. -/
def flipPos (r : Codeword) (p : Nat) : Codeword := r ^^^ (1#12 <<< (11 - p))

/-- `data(r) = {r[9], r[7:5], r[3:0]}` (40_encoder.md R94). -/
def extractData (r : Codeword) : Byte :=
  r.extractLsb' 9 1 ++ r.extractLsb' 5 3 ++ r.extractLsb' 0 4

/-- Correcting the position the syndrome names, where it names one (40_encoder.md R90, R94). The block has no decoder
(00_scope.md R4); the laws speak of one. DESIGN CHOICE (log 20): a word whose syndrome names no position (13, 14 or 15, which only two or
more inversions give) is returned as it is; 93_implementation_defined.md U20 leaves its decoding unspecified. -/
def correct (r : Codeword) : Codeword :=
  if syndrome r = 0 ∨ 12 < (syndrome r).toNat then r else flipPos r ((syndrome r).toNat - 1)

/-- How many bits of a word are 1 (40_encoder.md R91 "weight"). -/
def weight (w : Codeword) : Nat := ((List.range 12).filter w.getLsbD).length

/-- `cwBits(w)`: the positions in send order (41_transmitter.md R107). -/
def cwBits (w : Codeword) : List Bool := (List.range 12).map (pos w)

end Sys2Proof.Machine
end

