-- ==== Sys2Proof/Machine/Flags.lean ====
section
/-! DEFINITION. The status fields: BUSY, the fault codes and the STATUS word (10_state.md R23 to R27; 60_exceptions.md R140). -/

namespace Sys2Proof.Machine

/-- `BUSY`: 1 exactly when `PHASE != IDLE` (10_state.md R25). -/
def State.busy (s : State) : Bool := !(s.phase == .idle)

/-- The code of a fault (60_exceptions.md R140). -/
def CmdFault.code : CmdFault → BitVec 4
  | .illegalCommand => 1
  | .busyViolation => 2
  | .notConfigured => 3
  | .alreadyConfigured => 4
  | .msgTooLong => 5

/-- STATUS: `FAULT` in [7:4], reserved [3] reading 0, `CFG_ERR` in [2], `BUSY` in [1], `CFG_VALID` in [0] (10_state.md R23). -/
def State.status (s : State) : BitVec 8 :=
  s.fault ++ 0#1 ++ BitVec.ofBool s.cfgErr ++ BitVec.ofBool s.busy ++ BitVec.ofBool s.cfgValid

end Sys2Proof.Machine
end

