-- ==== Sys2Proof/Machine/Operands.lean ====
section
/-! DEFINITION. How the commands read their port operands (30_encoding.md R71). -/

namespace Sys2Proof.Machine

/-- `1000 div rate` for a positive rate, truncated toward zero (41_transmitter.md R101; 00_scope.md R11 `MS_NUM`). -/
def durationOf (rate : Signed32) : Nat := 1000 / rate.toInt.toNat

/-- The duration as `BIT_DURATION` holds it, 10 bits unsigned (10_state.md R31). -/
def durationReg (rate : Signed32) : BitVec 10 := BitVec.ofNat 10 (durationOf rate)

/-- `OP_RATE <= 0` or `OP_COUNT <= 0`, a signed comparison (00_scope.md R11; 41_transmitter.md R100, R109). -/
def nonPositive (v : Signed32) : Bool := decide (v.toInt ≤ 0)

/-- `OP_COUNT - 1` for a positive count (41_transmitter.md R109). -/
def repeatsAfterFirst (count : Signed32) : Nat := (count.toInt - 1).toNat

/-- `len(OP_MSG) > MAX_MSG_LEN` (60_exceptions.md R146); never so where the bound is absent. -/
def Params.tooLong (p : Params) (m : List Byte) : Bool :=
  match p.maxMsgLen with
  | none => false
  | some bound => decide (bound < m.length)

/-- A handle is in a set of channels; an absent set holds every handle. -/
def inChannelSet (set : Option (List Channel)) (ch : Channel) : Bool :=
  match set with
  | none => true
  | some chans => chans.contains ch

/-- The handle is a value of the type `Channel` (00_scope.md R7) that the sink can make an output (70_reset_and_hazards.md R169). -/
def Params.configurable (p : Params) (ch : Channel) : Bool := inChannelSet p.channels ch && inChannelSet p.outputs ch

end Sys2Proof.Machine
end

