-- ==== Sys2Proof/Machine/Ops.lean ====
section
/-! DEFINITION. The shared operations: emitting an event, reading the message, the checks every command passes, recording a
fault, and reset. -/

namespace Sys2Proof.Machine

/-- `CHANNEL` where it holds a channel, or the fault of needing one where it is none (10_state.md R24, R29). -/
def need {α : Type} (register : Option α) (f : Fault) (run : α → Host.Outcome State Fault Refusal) :
    Host.Outcome State Fault Refusal :=
  match register with
  | some v => run v
  | none => .fault f

/-- Recording a read of an unwritten register (93_implementation_defined.md "record a fault, never final"; log 9). `FAULT` is not
written: a read has no side effect on the block (20_memory.md R54), and no code of 60_exceptions.md R140 is for it. -/
def State.noteUnwritten (s : State) (r : UnwrittenRead) : State := { s with readFaults := s.readFaults ++ [r] }

/-- The sequencer's read of a register. Written, it gives its value. Unwritten, which no run reaches, the read is recorded and
a free value taken, so that the machine goes on and no value is picked (10_state.md R34; U9; log 9). -/
def State.readRegister {α : Type} (s : State) (register : Option α) (which : UnwrittenRead) (free : Nat → α)
    (run : State → α → Host.Outcome State Fault Refusal) : Host.Outcome State Fault Refusal :=
  match register with
  | some v => run s v
  | none => run { s.noteUnwritten which with draws := s.draws + 1 } (free s.draws)

/-- What the sink does with an event besides recording it: `ConfigureAsOutput` sets `LINE` to a draw of `INITIAL_LEVEL`
(10_state.md R33, a free value, log 6; DESIGN CHOICE there: states compared apart with equal counters draw equal levels), `SetLevel`
sets it to the level, `Sleep` leaves it and lets time pass (00_scope.md R12). -/
def State.sinkReceives (s : State) (e : Event) : State :=
  match e with
  | .configureAsOutput _ => { s with line := .level (Config.initialLevel s.draws), draws := s.draws + 1 }
  | .setLevel _ v => { s with line := .level v }
  | .sleep ms => { s with elapsed := s.elapsed + ms }

/-- `emit E` (00_scope.md R9, R10): the event is appended to the trace and received by the sink (60_exceptions.md R150). -/
def State.emit (s : State) (e : Event) : State :=
  { s.sinkReceives e with trace := s.trace ++ [e] }

/-- A `Sleep(ms)` that reset cuts short: the event stays in the trace, the time that passed is anything from 0 to `ms`
(70_reset_and_hazards.md R166, a free value, log 7; DESIGN CHOICE there: states compared apart with equal counters and equal `ms` pass
equal times). -/
def State.emitCutSleep (s : State) (ms : Nat) : State :=
  { s with
    trace := s.trace ++ [.sleep ms]
    elapsed := s.elapsed + min (Config.sleptBeforeReset s.draws) ms
    draws := s.draws + 1 }

/-- `MsgRead(i)`: byte `i` of the latched message; `none` where there is no byte `i`, which the sequencer tests before it
reads (20_memory.md R47). -/
def State.msgRead (s : State) (i : Nat) : Option Byte := s.msg[i]?

/-- The channel is an output in the sink (70_reset_and_hazards.md R167): it was made one, and nothing undoes that. -/
def State.isOutput (s : State) (ch : Channel) : Bool := s.trace.contains (.configureAsOutput ch)

/-- EMIT_SYMBOL, TRANSMIT_ONCE and TRANSMIT_REPEATED need a configuration (60_exceptions.md R143). -/
def Op.timed : Op → Bool
  | .emitSymbol | .transmitOnce | .transmitRepeated => true
  | .configure | .encode => false

/-- TRANSMIT_ONCE and TRANSMIT_REPEATED take a message (60_exceptions.md R146). -/
def Op.takesMessage : Op → Bool
  | .transmitOnce | .transmitRepeated => true
  | .configure | .encode | .emitSymbol => false

/-- The checks of 60_exceptions.md R148 in their order, on the operation the word selects (`none`: none). `none` is that
every check passes. -/
def State.check (s : State) (selected : Option Op) : Option CmdFault :=
  if s.busy then some .busyViolation
  else
    match selected with
    | none => some .illegalCommand
    | some op =>
      if op = .configure ∧ s.cfgValid then some .alreadyConfigured
      else if Op.timed op ∧ ¬ s.cfgValid then some .notConfigured
      else if Op.takesMessage op ∧ Params.tooLong s.params s.ports.msg then some .msgTooLong
      else none

/-- Recording a fault (60_exceptions.md R144, R152): the block's whole reaction to a rejected command. `FAULT` takes the code
if it is 0; nothing else changes. There is no trap entry and no return from one (R152, R153). -/
def State.raise (s : State) (f : CmdFault) : State :=
  { s with fault := if s.fault = 0 then f.code else s.fault }

/-- A command passes the checks of 60_exceptions.md R148 and runs, or is discarded with its fault recorded. -/
def State.checked (s : State) (selected : Option Op) (run : State → Host.Outcome State Fault Refusal) :
    Host.Outcome State Fault Refusal :=
  match s.check selected with
  | some f => .next (s.raise f)
  | none => run s

/-- Reset of the block (70_reset_and_hazards.md R165, R167): every block register to its value of 10_state.md R38; the trace,
the line and the time are the sink's and stay; what belongs to the host, and the model's own record, stay. -/
def State.blockReset (s : State) : State :=
  { State.reset with
    trace := s.trace
    line := s.line
    elapsed := s.elapsed
    draws := s.draws
    hostMoves := s.hostMoves
    ports := s.ports
    reads := s.reads
    readFaults := s.readFaults
    params := s.params }

end Sys2Proof.Machine
end

