-- ==== Sys2Proof/Machine/Encoder.lean ====
section
/-! DEFINITION. The Encoder's command, ENCODE (40_encoder.md R87). -/

namespace Sys2Proof.Machine

/-- ENCODE (40_encoder.md R87): `ENC_RESULT <- zext_16(encode(IMM[7:0]))`. -/
def execEncode (byte : Byte) (s : State) : Host.Outcome State Fault Refusal :=
  s.checked (some .encode) fun s =>
    .next { s with encResult := some ((hammingEncode byte).setWidth 16) }

end Sys2Proof.Machine
end

