-- ==== Sys2Proof/Machine/Transmitter.lean ====
section
/-! DEFINITION. The Transmitter's commands, as accepted: CONFIGURE, EMIT_SYMBOL, TRANSMIT_ONCE, TRANSMIT_REPEATED
(41_transmitter.md R100, R103, R105, R109). What a timed command then emits is the sequencer's (Machine/Sequencer.lean). -/

namespace Sys2Proof.Machine

/-- CONFIGURE (41_transmitter.md R100; 60_exceptions.md R147): a non-positive rate is the configuration error; else the
configuration is written and `ConfigureAsOutput` emitted. A channel the sink cannot make an output is refused where the
event would be emitted (70_reset_and_hazards.md R169; log 5). -/
def execConfigure (s : State) : Host.Outcome State Fault Refusal :=
  s.checked (some .configure) fun s =>
    if nonPositive s.ports.rate then .next { s with cfgErr := true }
    else if Params.configurable s.params s.ports.channel then
      .next
        (State.emit
          { s with
            channel := some s.ports.channel
            bitDuration := some (durationReg s.ports.rate)
            cfgValid := true
            cfgErr := false }
          (.configureAsOutput s.ports.channel))
    else .refused .channelNotConfigurable

/-- EMIT_SYMBOL (41_transmitter.md R103). -/
def execEmitSymbol (v : Bool) (s : State) : Host.Outcome State Fault Refusal :=
  s.checked (some .emitSymbol) fun s => .next { s with emitV := some v, sub := .level, phase := .single }

/-- What TRANSMIT_ONCE and TRANSMIT_REPEATED latch and start (41_transmitter.md R105, R109; 20_memory.md R46). -/
def State.startFrames (s : State) (rep : Nat) (trail : Bool) : State :=
  { s with msg := s.ports.msg, k := 0, ci := 0, rep := rep, trail := trail, sub := .level, phase := .pre }

/-- TRANSMIT_ONCE (41_transmitter.md R105). -/
def execTransmitOnce (s : State) : Host.Outcome State Fault Refusal :=
  s.checked (some .transmitOnce) fun s => .next (s.startFrames 0 false)

/-- TRANSMIT_REPEATED (41_transmitter.md R109): a count of 0 or less changes nothing. -/
def execTransmitRepeated (s : State) : Host.Outcome State Fault Refusal :=
  s.checked (some .transmitRepeated) fun s =>
    if nonPositive s.ports.count then .next s
    else .next (s.startFrames (repeatsAfterFirst s.ports.count) s.params.gapAfterLast)

end Sys2Proof.Machine
end

