-- ==== Sys2Proof/Machine/Dispatch.lean ====
section
/-! DEFINITION. exec: one arm per command, each a call of its meaning. -/

namespace Sys2Proof.Machine

def exec (i : Instr) (s : State) : Host.Outcome State Fault Refusal :=
  match i with
  | .configure => Sys2Proof.Machine.execConfigure s
  | .encode byte => Sys2Proof.Machine.execEncode byte s
  | .emitSymbol v => Sys2Proof.Machine.execEmitSymbol v s
  | .transmitOnce => Sys2Proof.Machine.execTransmitOnce s
  | .transmitRepeated => Sys2Proof.Machine.execTransmitRepeated s

end Sys2Proof.Machine
end

