-- ==== Sys2Proof/Machine/Trace.lean ====
section
/-! DEFINITION. The frame and the traces the commands must produce (30_encoding.md R65 to R68; 41_transmitter.md R104 to
R110), as functions the sequencer is held against (R121). -/

namespace Sys2Proof.Machine

/-- `k mod 2`, the value of symbol `k` of the preamble and the postamble (30_encoding.md R66, R67). -/
def markerBit (k : Nat) : Bool := decide (k % 2 = 1)

/-- `PRE`, the 8 symbols of the preamble and of the postamble (41_transmitter.md R107). -/
def markerSymbols : List Bool := (List.range 8).map markerBit

/-- `frameSymbols(m)` (41_transmitter.md R107). -/
def frameSymbols (m : List Byte) : List Bool :=
  markerSymbols ++ m.flatMap (fun b => cwBits (hammingEncode b)) ++ markerSymbols

/-- `symbol(v)` (41_transmitter.md R104), for a channel and a bit duration. -/
def symbolTrace (ch : Channel) (dur : Nat) (v : Bool) : List Event := [.setLevel ch v, .sleep dur]

/-- `frameTrace(m)` (41_transmitter.md R106). -/
def frameTrace (ch : Channel) (dur : Nat) (m : List Byte) : List Event :=
  (frameSymbols m).flatMap (symbolTrace ch dur)

/-- `repeatedTrace(m, n)` for `n = more + 1` frames (41_transmitter.md R110). -/
def repeatedTrace (p : Params) (ch : Channel) (dur : Nat) (m : List Byte) (more : Nat) : List Event :=
  frameTrace ch dur m
    ++ (List.replicate more (Event.sleep p.gapMs :: frameTrace ch dur m)).flatten
    ++ (if p.gapAfterLast then [.sleep p.gapMs] else [])

/-- The sum of a trace's sleeps, the time it takes (70_reset_and_hazards.md R177 to R179). -/
def sleepTotal (trace : List Event) : Nat :=
  (trace.map fun e => match e with | .sleep ms => ms | _ => 0).sum

end Sys2Proof.Machine
end

