-- ==== Sys2Proof/Machine/Sequencer.lean ====
section
/-! DEFINITION. The sequencer: the block's one enabled step while it is busy (41_transmitter.md R113 to R120). -/

namespace Sys2Proof.Machine

/-- The level of the symbol in progress (41_transmitter.md R114). Phases without a level step have none; the sequencer does
not ask for it there. -/
def State.symbolLevel (s : State) (run : State → Bool → Host.Outcome State Fault Refusal) :
    Host.Outcome State Fault Refusal :=
  match s.phase with
  | .single => s.readRegister s.emitV .emitV Config.unwrittenLevel run
  | .data => s.readRegister s.cw .cw Config.unwrittenCodeword fun u w => run u (pos w s.k)
  | .pre | .post | .idle | .gap | .tailGap => run s (markerBit s.k)

/-- The level step (41_transmitter.md R114). -/
def State.levelStep (s : State) : Host.Outcome State Fault Refusal :=
  need s.channel .channelNone fun ch =>
    s.symbolLevel fun u v => .next { u.emit (.setLevel ch v) with sub := .wait }

/-- The block's next step is a `Sleep`: the gaps, and a symbol whose level is set (41_transmitter.md R115 to R120). -/
def State.sleepsNext (s : State) : Bool :=
  match s.phase with
  | .idle => false
  | .gap | .tailGap => true
  | .single | .pre | .data | .post => s.sub == .wait

/-- The length of that `Sleep`: `GAP_MS` in the gaps, `BIT_DURATION` in a symbol (41_transmitter.md R115 to R120). -/
def State.sleepLength (s : State) (run : State → Nat → Host.Outcome State Fault Refusal) :
    Host.Outcome State Fault Refusal :=
  match s.phase with
  | .gap | .tailGap => run s s.params.gapMs
  | .idle | .single | .pre | .data | .post =>
    s.readRegister s.bitDuration .bitDuration Config.unwrittenDuration fun u d => run u d.toNat

/-- The end of a marker or of a codeword: the next byte's codeword if there is a byte, else the postamble
(41_transmitter.md R115, R116: `CI < len(MSG)`, then `MsgRead(CI)`). -/
def State.nextCodeword (s : State) : State :=
  match s.msgRead s.ci with
  | some b => { s with cw := some (hammingEncode b), phase := .data }
  | none => { s with phase := .post }

/-- The end of a frame (41_transmitter.md R117). -/
def State.endFrame (s : State) : State :=
  if 0 < s.rep then { s with phase := .gap }
  else if s.trail then { s with phase := .tailGap }
  else { s with phase := .idle }

/-- The updates that take effect when a `Sleep` step ends, by phase (41_transmitter.md R113, R115 to R120). -/
def State.afterSleep (s : State) : State :=
  match s.phase with
  | .pre =>
    if s.k < 7 then { s with sub := .level, k := s.k + 1 }
    else State.nextCodeword { s with sub := .level, k := 0 }
  | .data =>
    if s.k < 11 then { s with sub := .level, k := s.k + 1 }
    else State.nextCodeword { s with sub := .level, k := 0, ci := s.ci + 1 }
  | .post =>
    if s.k < 7 then { s with sub := .level, k := s.k + 1 }
    else State.endFrame { s with sub := .level, k := 0 }
  | .single => { s with sub := .level, phase := .idle }
  | .gap => { s with rep := s.rep - 1, ci := 0, k := 0, sub := .level, phase := .pre }
  | .tailGap => { s with trail := false, phase := .idle }
  | .idle => s

/-- The `Sleep` step: the event, the time, then the updates (41_transmitter.md R113, R115 to R120). -/
def State.sleepStep (s : State) : Host.Outcome State Fault Refusal :=
  s.sleepLength fun u ms => .next (u.emit (.sleep ms)).afterSleep

/-- The block's step (41_transmitter.md R113): exactly one is enabled while `PHASE != IDLE`; while `PHASE = IDLE` the block
waits, and the model's step changes nothing (log 11). -/
def State.blockStep (s : State) : Host.Outcome State Fault Refusal :=
  if s.phase = .idle then .next s
  else if s.sleepsNext then s.sleepStep
  else s.levelStep

/-- Reset during the block's next step where that is a `Sleep` (70_reset_and_hazards.md R166): the `Sleep` event stays in the
trace, the wait ends at once, no update of the step takes effect. Elsewhere it is a reset between two steps (R165). -/
def State.resetInSleep (s : State) : Host.Outcome State Fault Refusal :=
  if s.sleepsNext then s.sleepLength fun u ms => .next (u.emitCutSleep ms).blockReset
  else .next s.blockReset

end Sys2Proof.Machine
end

