-- ==== Sys2Proof/Machine/HostPort.lean ====
section
/-! DEFINITION. What each move of the host does (60_exceptions.md R161): the command port, the status reads, reset. -/

namespace Sys2Proof.Machine

/-- The host presents a command (30_encoding.md R70): its ports are driven, the word is decoded, the command runs. An illegal
word goes through the checks of 60_exceptions.md R148 with no operation selected, so it is always rejected. -/
def State.issue (s : State) (c : Command) : Host.Outcome State Fault Refusal :=
  match decode c.word with
  | some i => exec i { s with ports := c.ports }
  | none => State.checked { s with ports := c.ports } none fun s => .next s

/-- The host reads STATUS: no side effect on the block (10_state.md R23). -/
def State.hostReadsStatus (s : State) : State := { s with reads := s.reads ++ [.status s.status] }

/-- The host reads `ENC_RESULT`: no side effect on the block (20_memory.md R54). Where it is unwritten the host reads nothing: no
value is given, the read's fault is recorded, and the machine goes on (10_state.md R34; 93_implementation_defined.md U8 with its
`fault`: "record a fault, never final"; log 9). -/
def State.hostReadsEncResult (s : State) : State :=
  match s.encResult with
  | some w => { s with reads := s.reads ++ [.encResult w] }
  | none => s.noteUnwritten .encResult

/-- One move of the host, already taken off the list. `awaitIdle` stays at its head while `BUSY = 1`. -/
def State.hostMove (s : State) (m : HostMove) : Host.Outcome State Fault Refusal :=
  match m with
  | .command c => s.issue c
  | .reset => .next s.blockReset
  | .resetInSleep => s.resetInSleep
  | .readStatus => .next s.hostReadsStatus
  | .readEncResult => .next s.hostReadsEncResult
  | .yield => s.blockStep
  | .awaitIdle => if s.busy then State.blockStep { s with hostMoves := .awaitIdle :: s.hostMoves } else .next s

/-- One step in the global order of 20_memory.md R57: the host's next move, or the block's step where the host is silent. -/
def State.advance (s : State) : Host.Outcome State Fault Refusal :=
  match s.hostMoves with
  | [] => s.blockStep
  | m :: rest => State.hostMove { s with hostMoves := rest } m

/-- The state with a word as the host's very next move, its ports as the host drives them now (log 10). -/
def State.presentWord (s : State) (w : CmdWord) : State :=
  { s with hostMoves := .command { word := w, ports := s.ports } :: s.hostMoves }

end Sys2Proof.Machine
end

