-- ==== Sys2Proof/Machine/Step.lean ====
section
/-! DEFINITION. The machine's step, and how an opcode-table word is placed where the step takes its next command. -/

namespace Sys2Proof.Machine

/-- One step: the host's next move, or the block's step (20_memory.md R57). -/
def step (s : State) : Host.Outcome State Fault Refusal := s.advance

/-- LedP-TX fetches nothing (10_state.md R21): the host issues a command on the command port. The word is put there as the
host's very next move (log 10). -/
def State.withFetchWord (s : State) (nbits w : Nat) : State := s.presentWord (tableWord nbits w)

end Sys2Proof.Machine
end

