-- ==== Sys2Proof/Machine/Asm.lean ====
section
/-! DEFINITION. The assembler of 30_encoding.md R77 to R79: a line of text, its abstract line, the command it stands for. -/

namespace Sys2Proof.Machine

/-- `DEFAULT_RATE` (00_scope.md R6), the rate of a CONFIGURE that names none (30_encoding.md R78). -/
def defaultRate : Int := 10

/-- The bytes a string literal's characters stand for (30_encoding.md R79): a plain character its ASCII code, the escapes
their byte; no terminating zero byte. `none` where the literal is ill formed. -/
def literalBytes : List Char → Option (List Byte)
  | [] => some []
  | c :: rest =>
    if c == backslashChar then
      match rest with
      | [] => none
      | e :: rest' =>
        if e == quoteChar || e == backslashChar then
          (literalBytes rest').map fun bs => BitVec.ofNat 8 e.toNat :: bs
        else if e == 'x' then
          match rest' with
          | h :: l :: rest'' =>
            match hexDigit? h, hexDigit? l with
            | some hi, some lo => (literalBytes rest'').map fun bs => BitVec.ofNat 8 (16 * hi + lo) :: bs
            | _, _ => none
          | _ => none
        else none
    else if plainChar c then (literalBytes rest).map fun bs => BitVec.ofNat 8 c.toNat :: bs
    else none

/-- The bytes of a message (30_encoding.md R79). -/
def messageBytes : AsmMessage → Option (List Byte)
  | .bytes values => if AsmMessage.wellFormed (.bytes values) then some (values.map (BitVec.ofNat 8)) else none
  | .literal chars => literalBytes chars

/-- A 32-bit operand from its integer, or an assembly error (30_encoding.md R77). -/
def operand32 (n : Int) : Option Signed32 := if inSigned32 n then some (BitVec.ofInt 32 n) else none

/-- The command a line stands for (30_encoding.md R77, R78): its word and the ports it drives; the ports it does not use are
left idle. `none` is an assembly error. -/
def assemble : AsmLine → Option Command
  | .configure ch rate =>
    (operand32 (rate.getD defaultRate)).map fun r =>
      { word := encode .configure, ports := { Ports.idle with channel := ch, rate := r } }
  | .encode byte =>
    if byte ≤ 255 then some { word := encode (.encode (BitVec.ofNat 8 byte)), ports := Ports.idle } else none
  | .emitSymbol v =>
    if v ≤ 1 then some { word := encode (.emitSymbol (decide (v = 1))), ports := Ports.idle } else none
  | .transmitOnce message =>
    (messageBytes message).map fun m => { word := encode .transmitOnce, ports := { Ports.idle with msg := m } }
  | .transmitRepeated message count =>
    match messageBytes message, operand32 count with
    | some m, some c =>
      some { word := encode .transmitRepeated, ports := { Ports.idle with msg := m, count := c } }
    | _, _ => none

/-! The text of a line. DESIGN CHOICE (log 18): spaces and tabs may stand between any two tokens, a channel is written `ch` and a
decimal number, hexadecimal digits may be of either case, and a `;` inside a string literal starts no comment; a `<v>` is spelled like a `<byte>`, in decimal or `0x` hexadecimal; and leading zeros may
stand before any number. -/

/-- A token of a line. -/
inductive Token where
  | word (chars : List Char)
  | str (chars : List Char)
  | comma
  | openBracket
  | closeBracket
deriving DecidableEq, Repr

/-- Where the tokenizer is: outside a literal, inside one, or inside one right after a backslash. -/
inductive LexMode where
  | outside
  | inside
  | escaped
deriving DecidableEq, Repr

/-- The word collected so far (last character first), as a token in front of the others. -/
def flushWord (acc : List Char) (tokens : List Token) : List Token :=
  if acc.isEmpty then tokens else .word acc.reverse :: tokens

/-- The tokens of a line up to its comment (30_encoding.md R77); `none` where a literal is not closed. `acc` holds the word or
the literal being read, last character first. -/
def lex : List Char → LexMode → List Char → Option (List Token)
  | [], .outside, acc => some (flushWord acc [])
  | [], _, _ => none
  | c :: rest, .outside, acc =>
    if c == ';' then some (flushWord acc [])
    else if c == ' ' || c == '\t' then (lex rest .outside []).map (flushWord acc)
    else if c == ',' then (lex rest .outside []).map fun ts => flushWord acc (.comma :: ts)
    else if c == '[' then (lex rest .outside []).map fun ts => flushWord acc (.openBracket :: ts)
    else if c == ']' then (lex rest .outside []).map fun ts => flushWord acc (.closeBracket :: ts)
    else if c == quoteChar then if acc.isEmpty then lex rest .inside [] else none
    else lex rest .outside (c :: acc)
  | c :: rest, .inside, acc =>
    if c == quoteChar then (lex rest .outside []).map fun ts => .str acc.reverse :: ts
    else if c == backslashChar then lex rest .escaped (c :: acc)
    else lex rest .inside (c :: acc)
  | c :: rest, .escaped, acc => lex rest .inside (c :: acc)

/-- A decimal digit's value. -/
def decDigit? (c : Char) : Option Nat :=
  if 0x30 ≤ c.toNat ∧ c.toNat ≤ 0x39 then some (c.toNat - 0x30) else none

/-- The number digits of a base write, most significant first, on top of `acc`. -/
def digitsValue (base : Nat) (digit : Char → Option Nat) : List Char → Nat → Option Nat
  | [], acc => some acc
  | c :: rest, acc =>
    match digit c with
    | some d => digitsValue base digit rest (base * acc + d)
    | none => none

/-- A decimal number of at least one digit. -/
def decimal? (cs : List Char) : Option Nat := if cs.isEmpty then none else digitsValue 10 decDigit? cs 0

/-- A `<byte>`: decimal or `0x` hexadecimal (30_encoding.md R77). The range is checked later. -/
def number? : List Char → Option Nat
  | '0' :: 'x' :: h :: rest => digitsValue 16 hexDigit? (h :: rest) 0
  | cs => decimal? cs

/-- A `<rate>` or `<count>`: a decimal integer (30_encoding.md R77). -/
def integer? : List Char → Option Int
  | '-' :: rest => (decimal? rest).map fun n => -(n : Int)
  | cs => (decimal? cs).map fun n => (n : Int)

/-- A `<channel>` (30_encoding.md R77 "written as the model chooses"): `ch` and a decimal number. -/
def channel? : List Char → Option Channel
  | 'c' :: 'h' :: rest => (decimal? rest).map fun n => { handle := n }
  | _ => none

/-- The rest of a byte list after one of its numbers: `, n` again and again, then `]`. -/
def byteListTail : List Token → Option (List Nat × List Token)
  | .closeBracket :: rest => some ([], rest)
  | .comma :: .word w :: rest =>
    match number? w, byteListTail rest with
    | some n, some (ns, after) => some (n :: ns, after)
    | _, _ => none
  | _ => none

/-- A `<message>` (30_encoding.md R79) at the head of the tokens, and the tokens after it. -/
def message? : List Token → Option (AsmMessage × List Token)
  | .str cs :: rest => some (.literal cs, rest)
  | .openBracket :: .closeBracket :: rest => some (.bytes [], rest)
  | .openBracket :: .word w :: rest =>
    match number? w, byteListTail rest with
    | some n, some (ns, after) => some (.bytes (n :: ns), after)
    | _, _ => none
  | _ => none

/-- A mnemonic of 30_encoding.md R77, or the source's own name for it (R77 "accepted as aliases"). -/
def mnemonicOp (w : List Char) : Option Op :=
  if w = ['C', 'O', 'N', 'F', 'I', 'G', 'U', 'R', 'E'] then some .configure
  else if w = ['E', 'N', 'C', 'O', 'D', 'E'] ∨ w = ['e', 'n', 'c', 'o', 'd', 'e'] then some .encode
  else if w = ['E', 'M', 'I', 'T', '_', 'S', 'Y', 'M', 'B', 'O', 'L']
      ∨ w = ['e', 'm', 'i', 't', 'S', 'y', 'm', 'b', 'o', 'l'] then some .emitSymbol
  else if w = ['T', 'R', 'A', 'N', 'S', 'M', 'I', 'T', '_', 'O', 'N', 'C', 'E']
      ∨ w = ['t', 'r', 'a', 'n', 's', 'm', 'i', 't', 'O', 'n', 'c', 'e'] then some .transmitOnce
  else if w = ['T', 'R', 'A', 'N', 'S', 'M', 'I', 'T', '_', 'R', 'E', 'P', 'E', 'A', 'T', 'E', 'D']
      ∨ w = ['t', 'r', 'a', 'n', 's', 'm', 'i', 't', 'R', 'e', 'p', 'e', 'a', 't', 'e', 'd'] then some .transmitRepeated
  else none

/-- The operands of an operation, one row of 30_encoding.md R77 or R78 each. R77 says of `<v>` only that it "is 0 or 1": DESIGN CHOICE
(log 18), it may be spelled in any way a `<byte>` of that value may (`0x1`, `001`). -/
def parseOperands (op : Op) (tokens : List Token) : Option AsmLine :=
  match op, tokens with
  | .configure, [.word c] => (channel? c).map fun ch => .configure ch none
  | .configure, [.word c, .comma, .word r] =>
    match channel? c, integer? r with
    | some ch, some rate => some (.configure ch (some rate))
    | _, _ => none
  | .encode, [.word b] => (number? b).map .encode
  | .emitSymbol, [.word v] => (number? v).map .emitSymbol
  | .transmitOnce, ts =>
    match message? ts with
    | some (m, []) => some (.transmitOnce m)
    | _ => none
  | .transmitRepeated, ts =>
    match message? ts with
    | some (m, [.comma, .word n]) => (integer? n).map fun count => .transmitRepeated m count
    | _ => none
  | _, _ => none

/-- A line of text (30_encoding.md R77): `some none` is a line with no command on it (blank, or a comment alone); `none` is an
assembly error. -/
def parseLine (line : List Char) : Option (Option AsmLine) :=
  match lex line .outside [] with
  | some [] => some none
  | some (.word w :: operands) =>
    match mnemonicOp w with
    | some op => (parseOperands op operands).map some
    | none => none
  | _ => none

end Sys2Proof.Machine
end

