-- ==== Sys2Proof/Machine/System.lean ====
section
/-! DEFINITION. Several instances (10_state.md R39; 60_exceptions.md R158): each has its own state, they share nothing, and a
shared channel is refused (70_reset_and_hazards.md R175; log 15). -/

namespace Sys2Proof.Machine

/-- A list of LedP-TX instances, each with its own state, sink and host (10_state.md R39). -/
structure System where
  instances : List State
  /-- The draw counter of the whole system, at which every instance draws its free values, so that no two draws are related (log 15).
  The model's own. -/
  draws : Nat
deriving DecidableEq, Repr

/-- The channels the instances hold. -/
def System.channels (sys : System) : List Channel := sys.instances.filterMap State.channel

/-- No two instances hold one channel (70_reset_and_hazards.md R175). -/
def System.distinct (sys : System) : Bool := decide sys.channels.Nodup

/-- Instance `n` as it steps: its own state, drawing at the system's counter (log 15). -/
def System.stepping (sys : System) (n : Fin sys.instances.length) : State :=
  { sys.instances.get n with draws := sys.draws }

/-- The system after instance `n` has become `t`. -/
def System.replaced (sys : System) (n : Fin sys.instances.length) (t : State) : System :=
  { instances := sys.instances.set n t, draws := t.draws }

/-- Instance `n` takes a step (any order of the instances' steps is possible, 60_exceptions.md R158). A step after which two
instances hold one channel is refused (R175; DEDUCED, log 15). -/
def System.stepAt (sys : System) (n : Fin sys.instances.length) : Host.Outcome System Fault Refusal :=
  match step (sys.stepping n) with
  | .next t => if (sys.replaced n t).distinct then .next (sys.replaced n t) else .refused .sharedChannel
  | .fault f => .fault f
  | .refused r => .refused r

end Sys2Proof.Machine
end

