-- ==== Sys2Proof/Safety.lean ====
section
/-! DEFINITION. What statements speak of: the invariant of the block, the sink's agreement with the trace, a command the
block does not reject, the end of a run, and the fields that no trace depends on. -/

namespace Sys2Proof.Machine

/-- What each phase says of the sequencer's position (10_state.md R30; 41_transmitter.md R114 to R120). -/
def State.PositionOk (s : State) : Prop :=
  match s.phase with
  | .idle => s.k = 0 ∧ s.rep = 0 ∧ s.sub = .level ∧ s.trail = false
  | .single => s.k = 0 ∧ s.rep = 0 ∧ s.trail = false ∧ s.emitV.isSome = true
  | .pre => s.k ≤ 7 ∧ s.ci = 0
  | .data => s.k ≤ 11 ∧ ∃ b, s.msgRead s.ci = some b ∧ s.cw = some (hammingEncode b)
  | .post => s.k ≤ 7 ∧ s.ci = s.msg.length
  | .gap => s.k = 0 ∧ s.sub = .level ∧ 0 < s.rep
  | .tailGap => s.k = 0 ∧ s.sub = .level ∧ s.rep = 0 ∧ s.trail = true

/-- The invariant of the block: what holds at reset and what every step keeps. -/
structure State.Inv (s : State) : Prop where
  /-- `CFG_VALID` is 1 exactly when the block holds a channel (10_state.md R24). -/
  channelHeld : s.cfgValid = s.channel.isSome
  /-- and exactly when it holds a bit duration (R24, R31). -/
  durationHeld : s.cfgValid = s.bitDuration.isSome
  /-- The duration is in 0 to 1000 (R31). -/
  durationBound : ∀ d, s.bitDuration = some d → d.toNat ≤ 1000
  /-- A channel held was made an output, and is one the sink can make an output (41_transmitter.md R100;
  70_reset_and_hazards.md R169). -/
  channelOutput : ∀ ch, s.channel = some ch → s.isOutput ch = true ∧ Params.configurable s.params ch = true
  /-- A timed operation needs a configuration (10_state.md R24). -/
  busyConfigured : s.busy = true → s.cfgValid = true
  /-- The configuration error stands only while nothing is configured (10_state.md R26; 60_exceptions.md R147). -/
  errorUnconfigured : s.cfgErr = true → s.cfgValid = false
  /-- `FAULT` holds 0 or a code of 60_exceptions.md R140 (10_state.md R27). -/
  faultLegal : s.fault.toNat ≤ 5
  /-- `ENC_RESULT` holds a codeword (10_state.md R28). -/
  resultCodeword : ∀ w, s.encResult = some w → ∃ b, w = (hammingEncode b).setWidth 16
  /-- `REP` is in 0 to 2^31 - 2 (10_state.md R30). -/
  repBound : s.rep ≤ 2147483646
  /-- A trailing gap is due only with `GAP_AFTER_LAST` (41_transmitter.md R120). -/
  trailWanted : s.trail = true → s.params.gapAfterLast = true
  /-- The position fits the phase. -/
  position : s.PositionOk

/-- The level the last `SetLevel` of a trace left, where no `ConfigureAsOutput` came after it (10_state.md R33). -/
def lastLevel (trace : List Event) : Option Bool :=
  trace.foldl
    (fun last e => match e with | .setLevel _ v => some v | .configureAsOutput _ => none | .sleep _ => last) none

/-- The sink agrees with the trace: the line has the level last set (10_state.md R33), and no more time has passed than the
sleeps of the trace take (00_scope.md R12; 70_reset_and_hazards.md R166). -/
structure State.SinkInv (s : State) : Prop where
  lineSet : ∀ v, lastLevel s.trace = some v → s.line = .level v
  timeBound : s.elapsed ≤ sleepTotal s.trace

/-- The host's duties of 60_exceptions.md R161 for one command: idle, a legal word, configured exactly when it must be, a
message within the bound. -/
structure CommandOk (s : State) (c : Command) : Prop where
  idle : s.busy = false
  legal : wordLegal c.word = true
  configureOnce : opcField c.word = 0x1 → s.cfgValid = false
  configuredFirst : (opcField c.word = 0x3 ∨ opcField c.word = 0x4 ∨ opcField c.word = 0x5) → s.cfgValid = true
  withinBound : (opcField c.word = 0x4 ∨ opcField c.word = 0x5) →
    ∀ bound, s.params.maxMsgLen = some bound → c.ports.msg.length ≤ bound

/-- A run has ended: the host issues no more and the block is idle (00_scope.md R13). -/
def State.runEnded (s : State) : Prop := s.hostMoves = [] ∧ s.busy = false

/-- The host's next move is no reset. -/
def State.noResetNext (s : State) : Prop :=
  ∀ rest, s.hostMoves ≠ .reset :: rest ∧ s.hostMoves ≠ .resetInSleep :: rest

/-- Every register the sequencer's next step takes holds a value: what rules out `UnwrittenRead` and `Fault.channelNone` (10_state.md
R24, R34; 93_implementation_defined.md U9). -/
structure State.RegistersHeld (s : State) : Prop where
  channel : s.channel.isSome = true
  bitDuration : s.bitDuration.isSome = true
  emitV : s.phase = .single → s.emitV.isSome = true
  cw : s.phase = .data → s.cw.isSome = true

/-- Two states that differ at most in what no event depends on: the line, the time passed, the draws (41_transmitter.md R124). -/
def State.SameTraffic (s t : State) : Prop :=
  t = { s with line := t.line, elapsed := t.elapsed, draws := t.draws }

/-- `n` steps of the machine, stopping at the first fault or refusal. -/
def runSteps (n : Nat) (s : State) : Host.Outcome State Fault Refusal := Sys2Proof.core.run n s

/-- After `n` steps from `s` the operation has just ended: `BUSY` is 1 after every fewer steps, and 0 in `t`, the state after
`n` (10_state.md R25; 41_transmitter.md R121). -/
def EndsAfter (s : State) (n : Nat) (t : State) : Prop :=
  (∀ j, j < n → ∃ u, runSteps j s = .next u ∧ u.busy = true) ∧ runSteps n s = .next t ∧ t.busy = false

end Sys2Proof.Machine
end

