-- ==== Sys2Proof/Certificates/Slice0/Obligations.lean ====
section
/-! DEFINITION. The statements for the provers, each a rule of the spec or a claim that rests on its rules. -/

open Sys2Proof Sys2Proof.Machine

/-! The Encoder (40_encoder.md). -/

/-- 40_encoder.md R85 with 30_encoding.md R60 and R63: what each of the 12 positions holds, the parity positions as the
exclusive-or of the positions they cover. -/
def Obligations.CodewordPositions : Prop :=
  ∀ b : Byte,
    (pos (hammingEncode b) 2 = b.getLsbD 7 ∧ pos (hammingEncode b) 4 = b.getLsbD 6
      ∧ pos (hammingEncode b) 5 = b.getLsbD 5 ∧ pos (hammingEncode b) 6 = b.getLsbD 4
      ∧ pos (hammingEncode b) 8 = b.getLsbD 3 ∧ pos (hammingEncode b) 9 = b.getLsbD 2
      ∧ pos (hammingEncode b) 10 = b.getLsbD 1 ∧ pos (hammingEncode b) 11 = b.getLsbD 0)
    ∧ pos (hammingEncode b) 0
        = (pos (hammingEncode b) 2 ^^ pos (hammingEncode b) 4 ^^ pos (hammingEncode b) 6
            ^^ pos (hammingEncode b) 8 ^^ pos (hammingEncode b) 10)
    ∧ pos (hammingEncode b) 1
        = (pos (hammingEncode b) 2 ^^ pos (hammingEncode b) 5 ^^ pos (hammingEncode b) 6
            ^^ pos (hammingEncode b) 9 ^^ pos (hammingEncode b) 10)
    ∧ pos (hammingEncode b) 3
        = (pos (hammingEncode b) 4 ^^ pos (hammingEncode b) 5 ^^ pos (hammingEncode b) 6 ^^ pos (hammingEncode b) 11)
    ∧ pos (hammingEncode b) 7
        = (pos (hammingEncode b) 8 ^^ pos (hammingEncode b) 9 ^^ pos (hammingEncode b) 10 ^^ pos (hammingEncode b) 11)

/-- 40_encoder.md R86: the same function on byte bits and integer bits, with each parity as the parity of a masked byte. -/
def Obligations.CodewordByBitSlices : Prop :=
  ∀ b : Byte,
    hammingEncode b
      = BitVec.ofBool (parity8 (b &&& 0xDA)) ++ BitVec.ofBool (parity8 (b &&& 0xB6)) ++ b.extractLsb' 7 1
          ++ BitVec.ofBool (parity8 (b &&& 0x71)) ++ b.extractLsb' 4 3
          ++ BitVec.ofBool (parity8 (b &&& 0x0F)) ++ b.extractLsb' 0 4
    ∧ parity8 (b &&& 0xDA) = (b.getLsbD 7 ^^ b.getLsbD 6 ^^ b.getLsbD 4 ^^ b.getLsbD 3 ^^ b.getLsbD 1)
    ∧ parity8 (b &&& 0xB6) = (b.getLsbD 7 ^^ b.getLsbD 5 ^^ b.getLsbD 4 ^^ b.getLsbD 2 ^^ b.getLsbD 1)
    ∧ parity8 (b &&& 0x71) = (b.getLsbD 6 ^^ b.getLsbD 5 ^^ b.getLsbD 4 ^^ b.getLsbD 0)
    ∧ parity8 (b &&& 0x0F) = (b.getLsbD 3 ^^ b.getLsbD 2 ^^ b.getLsbD 1 ^^ b.getLsbD 0)

/-- 30_encoding.md R61: a codeword is the sum of its positions' weights, position 0 the most significant; held in 16 bits its
bits [15:12] are 0. -/
def Obligations.CodewordPacking : Prop :=
  ∀ w : Codeword,
    w.toNat = ((List.range 12).map fun p => (pos w p).toNat * 2 ^ (11 - p)).sum
    ∧ (w.setWidth 16).extractLsb' 12 4 = 0#4

/-- 40_encoder.md R88 and R92: different bytes have different codewords; the fixed values of 0x00 and 0xFF. -/
def Obligations.EncodeInjectiveWithFixedValues : Prop :=
  (∀ a b : Byte, hammingEncode a = hammingEncode b → a = b)
    ∧ hammingEncode 0x00 = 0x000 ∧ hammingEncode 0xFF = 0xEEF
    ∧ cwBits (hammingEncode 0xFF)
        = [true, true, true, false, true, true, true, false, true, true, true, true]
    ∧ hammingEncode 0xFF ≠ 0xFFF

/-- 40_encoder.md R90: the syndrome's four bits, 0 on every codeword, and `p + 1` after one inversion at position `p`. -/
def Obligations.SyndromeNamesInversion : Prop :=
  (∀ r : Codeword,
    (syndrome r).getLsbD 0 = (pos r 0 ^^ pos r 2 ^^ pos r 4 ^^ pos r 6 ^^ pos r 8 ^^ pos r 10)
    ∧ (syndrome r).getLsbD 1 = (pos r 1 ^^ pos r 2 ^^ pos r 5 ^^ pos r 6 ^^ pos r 9 ^^ pos r 10)
    ∧ (syndrome r).getLsbD 2 = (pos r 3 ^^ pos r 4 ^^ pos r 5 ^^ pos r 6 ^^ pos r 11)
    ∧ (syndrome r).getLsbD 3 = (pos r 7 ^^ pos r 8 ^^ pos r 9 ^^ pos r 10 ^^ pos r 11))
  ∧ (∀ b : Byte, syndrome (hammingEncode b) = 0#4)
  ∧ ∀ (b : Byte) (p : Fin 12),
      pos (flipPos (hammingEncode b) p.val) p.val = !(pos (hammingEncode b) p.val)
      ∧ (syndrome (flipPos (hammingEncode b) p.val)).toNat = p.val + 1

/-- 40_encoder.md R94: the data bits of a codeword are the byte, and a decoder that corrects the position the syndrome names
recovers the byte from any single inversion. -/
def Obligations.SingleInversionCorrected : Prop :=
  (∀ r : Codeword, extractData r = r.extractLsb' 9 1 ++ r.extractLsb' 5 3 ++ r.extractLsb' 0 4)
  ∧ ∀ b : Byte,
    extractData (hammingEncode b) = b
    ∧ ∀ p : Fin 12,
        correct (flipPos (hammingEncode b) p.val) = hammingEncode b
        ∧ extractData (correct (flipPos (hammingEncode b) p.val)) = b

/-- 40_encoder.md R93: `encode` is linear over exclusive-or, with the eight basis codewords, so a codeword is the exclusive-or of
the basis codewords of its byte's set bits. -/
def Obligations.EncodeLinear : Prop :=
  (∀ a b : Byte, hammingEncode (a ^^^ b) = hammingEncode a ^^^ hammingEncode b)
    ∧ (hammingEncode 0x80 = 0xE00 ∧ hammingEncode 0x40 = 0x980 ∧ hammingEncode 0x20 = 0x540
      ∧ hammingEncode 0x10 = 0xD20 ∧ hammingEncode 0x08 = 0x818 ∧ hammingEncode 0x04 = 0x414
      ∧ hammingEncode 0x02 = 0xC12 ∧ hammingEncode 0x01 = 0x111)
    ∧ ∀ b : Byte,
        hammingEncode b
          = (List.range 8).foldl (fun w i => if b.getLsbD i then w ^^^ hammingEncode (1#8 <<< i) else w) 0#12

/-- 40_encoder.md R91: two different codewords differ in at least 3 positions, a codeword but 0 has at least 3 ones (0x111 has
3), two inversions never give another codeword, and can give a syndrome that one inversion gives. -/
def Obligations.MinimumDistanceThree : Prop :=
  (∀ a b : Byte, a ≠ b → 3 ≤ weight (hammingEncode a ^^^ hammingEncode b))
    ∧ (∀ b : Byte, hammingEncode b ≠ 0#12 → 3 ≤ weight (hammingEncode b))
    ∧ hammingEncode 0x01 = 0x111 ∧ weight 0x111 = 3
    ∧ (∀ (b : Byte) (p q : Fin 12), p ≠ q → syndrome (flipPos (flipPos (hammingEncode b) p.val) q.val) ≠ 0#4)
    ∧ ∃ (b : Byte) (p q r : Fin 12), p ≠ q
        ∧ syndrome (flipPos (flipPos (hammingEncode b) p.val) q.val) = syndrome (flipPos (hammingEncode b) r.val)

/-- 40_encoder.md R87: ENCODE writes `ENC_RESULT`, zero-extended, and nothing else; a busy block records BUSY_VIOLATION and
writes nothing else; a nonzero `IMM[11:8]` makes the word illegal, and it is rejected; the rule's corner cases and example. It
needs no configuration. -/
def Obligations.EncodeCompletes : Prop :=
  (∀ (s : State) (byte : Byte), s.busy = false →
    exec (.encode byte) s = .next { s with encResult := some ((hammingEncode byte).setWidth 16) })
  ∧ (∀ (s : State) (byte : Byte), s.busy = true →
    exec (.encode byte) s = .next { s with fault := if s.fault = 0 then 2 else s.fault })
  ∧ (∀ w : CmdWord, opcField w = 0x2 →
    decode w = if (immField w).extractLsb' 8 4 = 0#4 then some (.encode ((immField w).extractLsb' 0 8)) else none)
  ∧ (∀ (s : State) (c : Command) (rest : List HostMove), s.hostMoves = .command c :: rest → s.busy = false →
    opcField c.word = 0x2 → (immField c.word).extractLsb' 8 4 ≠ 0#4 →
    step s = .next { s with hostMoves := rest, ports := c.ports, fault := if s.fault = 0 then 1 else s.fault })
  ∧ decode 0x2041 = some (.encode 0x41) ∧ (hammingEncode 0x41).setWidth 16 = 0x0891#16
  ∧ hammingEncode 0x00 = 0x000 ∧ hammingEncode 0xFF = 0xEEF

/-- ENCODE's frame (40_encoder.md R87 "`CFG_VALID`, `CFG_ERR`, `BUSY` and the sequencer are unchanged"): wherever it answers a next
state, only `ENC_RESULT` and `FAULT` can have changed; the message reads as before. -/
def Obligations.EncodeFrame : Prop :=
  ∀ (s t : State) (byte : Byte), exec (.encode byte) s = .next t →
    t = { s with encResult := t.encResult, fault := t.fault }
    ∧ (t.fault = s.fault ∨ t.encResult = s.encResult)
    ∧ ∀ a : Nat, t.msgRead a = s.msgRead a

/-! CONFIGURE (41_transmitter.md R100 to R102). -/

/-- 41_transmitter.md R100, R101 and 10_state.md R31: an accepted CONFIGURE with a positive rate writes the channel, the duration
`1000 div rate` (which 10 bits hold), `CFG_VALID` and `CFG_ERR`, emits `ConfigureAsOutput`, and changes nothing else of the block.
The line takes some level (R33). -/
def Obligations.ConfigureCompletes : Prop :=
  ∀ s : State, s.busy = false → s.cfgValid = false → 0 < s.ports.rate.toInt →
    Params.configurable s.params s.ports.channel = true →
    ∃ (t : State) (d : BitVec 10) (v : Bool), exec .configure s = .next t
      ∧ d.toNat = 1000 / s.ports.rate.toInt.toNat ∧ d.toNat ≤ 1000
      ∧ t = { s with
          channel := some s.ports.channel
          bitDuration := some d
          cfgValid := true
          cfgErr := false
          trace := s.trace ++ [.configureAsOutput s.ports.channel]
          line := .level v
          draws := t.draws }

/-- 60_exceptions.md R147: a CONFIGURE that passes the checks with a rate of 0 or less sets `CFG_ERR`; nothing else changes. -/
def Obligations.ConfigureRejectsNonPositiveRate : Prop :=
  ∀ s : State, s.busy = false → s.cfgValid = false → s.ports.rate.toInt ≤ 0 →
    exec .configure s = .next { s with cfgErr := true }

/-- 70_reset_and_hazards.md R169 (U14): a CONFIGURE that would be accepted with a channel the sink cannot make an output is
refused. That it is refused there, and not where its rate is rejected, is the model's reading (log 5). -/
def Obligations.ConfigureRefusesInvalidChannel : Prop :=
  ∀ s : State, s.busy = false → s.cfgValid = false → 0 < s.ports.rate.toInt →
    Params.configurable s.params s.ports.channel = false →
    exec .configure s = .refused .channelNotConfigurable

/-- 41_transmitter.md R102: a rate above 1000 is accepted with duration 0; a symbol's sleep is then `Sleep(0)`, emitted and not
skipped, and no time passes. -/
def Obligations.HighRateGivesZeroSleeps : Prop :=
  (∀ s : State, s.busy = false → s.cfgValid = false → 1000 < s.ports.rate.toInt →
    Params.configurable s.params s.ports.channel = true →
    ∃ t : State, exec .configure s = .next t ∧ t.cfgValid = true ∧ t.cfgErr = false ∧ t.bitDuration = some 0#10)
  ∧ ∀ s : State, s.bitDuration = some 0#10 → s.sub = .wait →
    (s.phase = .single ∨ s.phase = .pre ∨ s.phase = .data ∨ s.phase = .post) →
    ∃ t : State, s.blockStep = .next t ∧ t.trace = s.trace ++ [.sleep 0] ∧ t.elapsed = s.elapsed

/-- CONFIGURE's frame (41_transmitter.md R100; 10_state.md R32): wherever it answers a next state, only the configuration, its two
status bits, `FAULT` and what `ConfigureAsOutput` does to the sink can have changed. -/
def Obligations.ConfigureFrame : Prop :=
  ∀ s t : State, exec .configure s = .next t →
    t = { s with
      channel := t.channel
      bitDuration := t.bitDuration
      cfgValid := t.cfgValid
      cfgErr := t.cfgErr
      fault := t.fault
      trace := t.trace
      line := t.line
      draws := t.draws }
    ∧ (∀ a : Nat, t.msgRead a = s.msgRead a)
    ∧ (t.trace = s.trace → t = { s with cfgErr := t.cfgErr, fault := t.fault })
    ∧ (t.trace ≠ s.trace → t.trace = s.trace ++ [.configureAsOutput s.ports.channel] ∧ t.fault = s.fault)

/-! The timed commands, as accepted (41_transmitter.md R103, R105, R109). -/

/-- 41_transmitter.md R103: an accepted EMIT_SYMBOL writes `EMIT_V`, `SUB` and `PHASE`, and nothing else. -/
def Obligations.EmitSymbolCompletes : Prop :=
  ∀ (s : State) (v : Bool), s.busy = false → s.cfgValid = true →
    exec (.emitSymbol v) s = .next { s with emitV := some v, sub := .level, phase := .single }

/-- 41_transmitter.md R105: an accepted TRANSMIT_ONCE latches the message and starts one frame; nothing else changes. -/
def Obligations.TransmitOnceCompletes : Prop :=
  ∀ s : State, s.busy = false → s.cfgValid = true →
    (∀ bound, s.params.maxMsgLen = some bound → s.ports.msg.length ≤ bound) →
    exec .transmitOnce s = .next { s with
      msg := s.ports.msg, k := 0, ci := 0, rep := 0, trail := false, sub := .level, phase := .pre }

/-- 41_transmitter.md R109: an accepted TRANSMIT_REPEATED with a positive count latches the message and the count less one;
with a count of 0 or less it changes nothing. -/
def Obligations.TransmitRepeatedCompletes : Prop :=
  (∀ s : State, s.busy = false → s.cfgValid = true →
    (∀ bound, s.params.maxMsgLen = some bound → s.ports.msg.length ≤ bound) → 0 < s.ports.count.toInt →
    ∃ n : Nat, (n : Int) = s.ports.count.toInt - 1 ∧ n ≤ 2147483646
      ∧ exec .transmitRepeated s = .next { s with
          msg := s.ports.msg, k := 0, ci := 0, rep := n, trail := s.params.gapAfterLast, sub := .level, phase := .pre })
  ∧ ∀ s : State, s.busy = false → s.cfgValid = true →
    (∀ bound, s.params.maxMsgLen = some bound → s.ports.msg.length ≤ bound) → s.ports.count.toInt ≤ 0 →
    exec .transmitRepeated s = .next s

/-- The timed commands' frame (41_transmitter.md R103, R105, R109, R112): wherever they answer a next state, the configuration,
`ENC_RESULT`, the status bits but `BUSY` and `FAULT`, the trace, the line and the time are as before; EMIT_SYMBOL leaves the latched
message and the counters, and the transmits leave `EMIT_V`; the message after a transmit is the old one or the one on the port. -/
def Obligations.TimedCommandFrame : Prop :=
  (∀ (s t : State) (v : Bool), exec (.emitSymbol v) s = .next t →
    t = { s with emitV := t.emitV, sub := t.sub, phase := t.phase, fault := t.fault }
    ∧ ∀ a : Nat, t.msgRead a = s.msgRead a)
  ∧ (∀ s t : State, exec .transmitOnce s = .next t →
    t = { s with
      msg := t.msg, k := t.k, ci := t.ci, rep := t.rep, trail := t.trail, sub := t.sub, phase := t.phase
      fault := t.fault }
    ∧ (t.msg = s.msg ∨ t.msg = s.ports.msg))
  ∧ ∀ s t : State, exec .transmitRepeated s = .next t →
    t = { s with
      msg := t.msg, k := t.k, ci := t.ci, rep := t.rep, trail := t.trail, sub := t.sub, phase := t.phase
      fault := t.fault }
    ∧ (t.msg = s.msg ∨ t.msg = s.ports.msg)

/-- 41_transmitter.md R112: no command, once accepted or discarded, itself emits `SetLevel` or `Sleep`; CONFIGURE emits nothing or
`ConfigureAsOutput`; a rejected command and reset emit nothing. -/
def Obligations.CommandsEmitNoSymbols : Prop :=
  (∀ (i : Instr) (s t : State), exec i s = .next t →
    t.trace = s.trace ∨ (i = .configure ∧ t.trace = s.trace ++ [.configureAsOutput s.ports.channel]))
  ∧ (∀ (s : State) (f : CmdFault), (s.raise f).trace = s.trace ∧ (s.raise f).line = s.line)
  ∧ ∀ s : State, s.blockReset.trace = s.trace ∧ s.blockReset.line = s.line

/-! Checks and faults (60_exceptions.md). -/

/-- 60_exceptions.md R148 with R141 to R146: the checks in their order on a command the host presents. Each failed check
changes nothing but `FAULT`, which takes the code if it was 0 (R144); a command that passes them all runs. -/
def Obligations.CommandChecksInOrder : Prop :=
  ∀ (s : State) (c : Command) (rest : List HostMove), s.hostMoves = .command c :: rest →
    (s.busy = true →
      step s = .next { s with
        hostMoves := rest, ports := c.ports, fault := if s.fault = 0 then 2 else s.fault })
    ∧ (s.busy = false → wordLegal c.word = false →
      step s = .next { s with
        hostMoves := rest, ports := c.ports, fault := if s.fault = 0 then 1 else s.fault })
    ∧ (s.busy = false → wordLegal c.word = true → opcField c.word = 0x1 → s.cfgValid = true →
      step s = .next { s with
        hostMoves := rest, ports := c.ports, fault := if s.fault = 0 then 4 else s.fault })
    ∧ (s.busy = false → wordLegal c.word = true →
      (opcField c.word = 0x3 ∨ opcField c.word = 0x4 ∨ opcField c.word = 0x5) → s.cfgValid = false →
      step s = .next { s with
        hostMoves := rest, ports := c.ports, fault := if s.fault = 0 then 3 else s.fault })
    ∧ (∀ bound, s.busy = false → wordLegal c.word = true → (opcField c.word = 0x4 ∨ opcField c.word = 0x5) →
      s.cfgValid = true → s.params.maxMsgLen = some bound → bound < c.ports.msg.length →
      step s = .next { s with
        hostMoves := rest, ports := c.ports, fault := if s.fault = 0 then 5 else s.fault })
    ∧ (CommandOk s c → ∃ i, decode c.word = some i ∧ step s = exec i { s with hostMoves := rest, ports := c.ports }
      ∧ ∀ t, step s = .next t → t.fault = s.fault)

/-- 10_state.md R27: `FAULT` holds the first fault since reset: no step changes a nonzero `FAULT` but a reset. -/
def Obligations.FirstFaultKept : Prop :=
  ∀ s t : State, step s = .next t → s.fault ≠ 0 → s.noResetNext → t.fault = s.fault

/-! The sequencer (41_transmitter.md R113 to R120). -/

/-- 41_transmitter.md R114: the level step emits `SetLevel` with `EMIT_V`, `K mod 2` or position `K` of `CW` (bit `11 - K`), and
sets `SUB` to WAIT. -/
def Obligations.LevelStepEmitsSymbol : Prop :=
  ∀ (s : State) (ch : Channel), s.channel = some ch → s.sub = .level →
    (∀ v, s.phase = .single → s.emitV = some v →
      s.blockStep = .next { s with trace := s.trace ++ [.setLevel ch v], line := .level v, sub := .wait })
    ∧ (s.phase = .pre ∨ s.phase = .post →
      s.blockStep = .next { s with
        trace := s.trace ++ [.setLevel ch (decide (s.k % 2 = 1))]
        line := .level (decide (s.k % 2 = 1))
        sub := .wait })
    ∧ ∀ w, s.phase = .data → s.cw = some w → s.k ≤ 11 →
      s.blockStep = .next { s with
        trace := s.trace ++ [.setLevel ch (w.getLsbD (11 - s.k))]
        line := .level (w.getLsbD (11 - s.k))
        sub := .wait }

/-- 41_transmitter.md R115: the wait step in the preamble; there `CI` is 0 in every state of the invariant. -/
def Obligations.PreambleWaitStep : Prop :=
  (∀ s : State, s.Inv → s.phase = .pre → s.ci = 0)
  ∧ ∀ (s : State) (d : BitVec 10), s.phase = .pre → s.sub = .wait → s.bitDuration = some d →
    (s.k < 7 → s.blockStep = .next { s with
      trace := s.trace ++ [.sleep d.toNat], elapsed := s.elapsed + d.toNat, sub := .level, k := s.k + 1 })
    ∧ (∀ h : s.ci < s.msg.length, 7 ≤ s.k → s.blockStep = .next { s with
      trace := s.trace ++ [.sleep d.toNat], elapsed := s.elapsed + d.toNat, sub := .level, k := 0
      cw := some (hammingEncode s.msg[s.ci]), phase := .data })
    ∧ (s.msg.length ≤ s.ci → 7 ≤ s.k → s.blockStep = .next { s with
      trace := s.trace ++ [.sleep d.toNat], elapsed := s.elapsed + d.toNat, sub := .level, k := 0, phase := .post })

/-- 41_transmitter.md R116: the wait step in a codeword. -/
def Obligations.CodewordWaitStep : Prop :=
  ∀ (s : State) (d : BitVec 10), s.phase = .data → s.sub = .wait → s.bitDuration = some d →
    (s.k < 11 → s.blockStep = .next { s with
      trace := s.trace ++ [.sleep d.toNat], elapsed := s.elapsed + d.toNat, sub := .level, k := s.k + 1 })
    ∧ (∀ h : s.ci + 1 < s.msg.length, 11 ≤ s.k → s.blockStep = .next { s with
      trace := s.trace ++ [.sleep d.toNat], elapsed := s.elapsed + d.toNat, sub := .level, k := 0, ci := s.ci + 1
      cw := some (hammingEncode s.msg[s.ci + 1]) })
    ∧ (s.msg.length ≤ s.ci + 1 → 11 ≤ s.k → s.blockStep = .next { s with
      trace := s.trace ++ [.sleep d.toNat], elapsed := s.elapsed + d.toNat, sub := .level, k := 0, ci := s.ci + 1
      phase := .post })

/-- 41_transmitter.md R117: the wait step in the postamble: the next symbol, a gap while frames remain, a trailing gap where one is
due, else idle. -/
def Obligations.PostambleWaitStep : Prop :=
  ∀ (s : State) (d : BitVec 10), s.phase = .post → s.sub = .wait → s.bitDuration = some d →
    (s.k < 7 → s.blockStep = .next { s with
      trace := s.trace ++ [.sleep d.toNat], elapsed := s.elapsed + d.toNat, sub := .level, k := s.k + 1 })
    ∧ (7 ≤ s.k → s.blockStep = .next { s with
      trace := s.trace ++ [.sleep d.toNat], elapsed := s.elapsed + d.toNat, sub := .level, k := 0
      phase := if 0 < s.rep then .gap else if s.trail = true then .tailGap else .idle })

/-- 41_transmitter.md R118, R119, R120: the wait step of a single symbol, the gap step, which emits nothing but its `Sleep` and starts
the next frame of the same latched message (R111), and the trailing-gap step. -/
def Obligations.SingleWaitAndGapSteps : Prop :=
  (∀ (s : State) (d : BitVec 10), s.phase = .single → s.sub = .wait → s.bitDuration = some d →
    s.blockStep = .next { s with
      trace := s.trace ++ [.sleep d.toNat], elapsed := s.elapsed + d.toNat, sub := .level, phase := .idle })
  ∧ (∀ s : State, s.phase = .gap →
    s.blockStep = .next { s with
      trace := s.trace ++ [.sleep s.params.gapMs], elapsed := s.elapsed + s.params.gapMs
      rep := s.rep - 1, ci := 0, k := 0, sub := .level, phase := .pre })
  ∧ (∀ s : State, s.phase = .tailGap →
    s.blockStep = .next { s with
      trace := s.trace ++ [.sleep s.params.gapMs], elapsed := s.elapsed + s.params.gapMs
      trail := false, phase := .idle })
  ∧ ∀ s : State, s.Inv → s.phase = .tailGap → s.params.gapAfterLast = true

/-- 60_exceptions.md R149 with 41_transmitter.md R113: from every state of the invariant, a busy block's step is one next state (no
fault of any kind, no unwritten register read), and it emits exactly one event, a `SetLevel` or a `Sleep`; `FAULT` changes only where
a command is issued, or by reset. An idle block has no step (R113); that the model's step then changes nothing is the model's choice
(DESIGN CHOICE, log 11). -/
def Obligations.NothingFaultsUnderWay : Prop :=
  (∀ s : State, s.Inv → s.busy = true →
    ∃ (t : State) (e : Event), s.blockStep = .next t ∧ t.trace = s.trace ++ [e] ∧ t.fault = s.fault
      ∧ t.readFaults = s.readFaults ∧ t.draws = s.draws
      ∧ ((∃ ch v, s.channel = some ch ∧ e = .setLevel ch v) ∨ ∃ ms, e = .sleep ms))
  ∧ (∀ s : State, s.busy = false → s.blockStep = .next s)
  ∧ ∀ s t : State, step s = .next t → t.fault ≠ s.fault →
      ∃ m rest, s.hostMoves = m :: rest ∧ ((∃ c, m = .command c) ∨ m = .reset ∨ m = .resetInSleep)

/-- The sequencer's frame (41_transmitter.md R113 to R120): the block's step leaves the configuration, the status bits but `BUSY`,
`ENC_RESULT`, `EMIT_V`, the latched message, and everything of the host. (The model's own record of unwritten reads and its draw
counter change only where a register is unwritten, log 9.) -/
def Obligations.SequencerFrame : Prop :=
  ∀ s t : State, s.blockStep = .next t →
    t = { s with
      phase := t.phase, k := t.k, ci := t.ci, cw := t.cw, rep := t.rep, sub := t.sub, trail := t.trail
      trace := t.trace, line := t.line, elapsed := t.elapsed, readFaults := t.readFaults, draws := t.draws }
    ∧ ∀ a : Nat, t.msgRead a = s.msgRead a

/-- 10_state.md R34 (U9; 93's `fault` is "record a fault, never final"): what the sequencer does where a register it needs is unwritten,
and that no state of the invariant that is busy lacks one. That the record is a list of the model's own and that a free value is
taken, and that the model stops where `CHANNEL` is none, is the model's choice (log 9). -/
def Obligations.UnwrittenReadsFault : Prop :=
  (∀ (s : State) (ch : Channel), s.phase = .single → s.sub = .level → s.channel = some ch → s.emitV = none →
    ∃ v : Bool, s.blockStep = .next { s with
      trace := s.trace ++ [.setLevel ch v], line := .level v, sub := .wait
      readFaults := s.readFaults ++ [.emitV], draws := s.draws + 1 })
  ∧ (∀ (s : State) (ch : Channel), s.phase = .data → s.sub = .level → s.channel = some ch → s.cw = none →
    ∃ v : Bool, s.blockStep = .next { s with
      trace := s.trace ++ [.setLevel ch v], line := .level v, sub := .wait
      readFaults := s.readFaults ++ [.cw], draws := s.draws + 1 })
  ∧ (∀ s : State, (s.phase = .single ∨ s.phase = .pre ∨ s.phase = .data ∨ s.phase = .post) → s.sub = .wait →
    s.bitDuration = none →
    ∃ (t : State) (d : BitVec 10), s.blockStep = .next t ∧ t.trace = s.trace ++ [.sleep d.toNat]
      ∧ t.elapsed = s.elapsed + d.toNat ∧ t.readFaults = s.readFaults ++ [.bitDuration] ∧ t.fault = s.fault)
  ∧ (∀ s : State, s.busy = true → s.sleepsNext = false → s.channel = none → s.blockStep = .fault .channelNone)
  ∧ ∀ s : State, s.Inv → s.busy = true → s.RegistersHeld

/-! Frames and the trace law (30_encoding.md R65 to R68; 41_transmitter.md R104 to R111, R121). -/

/-- 41_transmitter.md R107 with 30_encoding.md R65 to R67: the symbols of a frame, written out. -/
def Obligations.FrameSymbolValues : Prop :=
  ∀ m : List Byte,
    frameSymbols m
      = [false, true, false, true, false, true, false, true]
        ++ m.flatMap (fun b => [
            (hammingEncode b).getLsbD 11, (hammingEncode b).getLsbD 10, (hammingEncode b).getLsbD 9,
            (hammingEncode b).getLsbD 8, (hammingEncode b).getLsbD 7, (hammingEncode b).getLsbD 6,
            (hammingEncode b).getLsbD 5, (hammingEncode b).getLsbD 4, (hammingEncode b).getLsbD 3,
            (hammingEncode b).getLsbD 2, (hammingEncode b).getLsbD 1, (hammingEncode b).getLsbD 0])
        ++ [false, true, false, true, false, true, false, true]

/-- 30_encoding.md R68, 41_transmitter.md R106 and R108: a frame of `n` bytes has `16 + 12n` symbols and twice as many events; the
empty message's frame is the two markers. -/
def Obligations.FrameLengths : Prop :=
  (∀ m : List Byte, (frameSymbols m).length = 16 + 12 * m.length)
  ∧ (∀ (ch : Channel) (dur : Nat) (m : List Byte),
    frameTrace ch dur m = (frameSymbols m).flatMap (fun v => [.setLevel ch v, .sleep dur])
    ∧ (frameTrace ch dur m).length = 2 * (16 + 12 * m.length))
  ∧ frameSymbols [] = markerSymbols ++ markerSymbols ∧ ∀ (ch : Channel) (dur : Nat), (frameTrace ch dur []).length = 32

/-- 70_reset_and_hazards.md R178, R179: the time of a frame, and of a repeat of `more + 1` frames. -/
def Obligations.FrameDurations : Prop :=
  (∀ (ch : Channel) (dur : Nat) (m : List Byte),
    sleepTotal (frameTrace ch dur m) = (16 + 12 * m.length) * dur)
  ∧ ∀ (p : Params) (ch : Channel) (dur : Nat) (m : List Byte) (more : Nat),
    sleepTotal (repeatedTrace p ch dur m more)
      = (more + 1) * (16 + 12 * m.length) * dur + (if p.gapAfterLast = true then more + 1 else more) * p.gapMs

/-- 41_transmitter.md R121, R104, R125 for EMIT_SYMBOL: from acceptance, with a silent host, the block emits exactly the symbol, one
event a step, `BUSY` being 1 until the `Sleep` has passed; the line then has the symbol's level. -/
def Obligations.EmitSymbolTrace : Prop :=
  ∀ (s : State) (v : Bool) (ch : Channel) (d : BitVec 10),
    s.hostMoves = [] → s.busy = false → s.cfgValid = true → s.channel = some ch → s.bitDuration = some d →
    ∃ u t : State, exec (.emitSymbol v) s = .next u ∧ EndsAfter u 2 t
      ∧ t.trace = s.trace ++ [.setLevel ch v, .sleep d.toNat]
      ∧ t.line = .level v ∧ t.elapsed = s.elapsed + d.toNat ∧ t.fault = s.fault

/-- 41_transmitter.md R121, R105 to R107, R125 for TRANSMIT_ONCE: from acceptance, with a silent host, the block emits exactly the frame
of the message, one event a step, ends idle after `2 * (16 + 12n)` steps and not before, with the line at 1; the time that passed is
the frame's. -/
def Obligations.TransmitOnceTrace : Prop :=
  ∀ (s : State) (ch : Channel) (d : BitVec 10),
    s.hostMoves = [] → s.busy = false → s.cfgValid = true → s.channel = some ch → s.bitDuration = some d →
    (∀ bound, s.params.maxMsgLen = some bound → s.ports.msg.length ≤ bound) →
    ∃ u t : State, exec .transmitOnce s = .next u ∧ EndsAfter u (2 * (16 + 12 * s.ports.msg.length)) t
      ∧ t.trace = s.trace ++ frameTrace ch d.toNat s.ports.msg
      ∧ t.line = .level true ∧ t.elapsed = s.elapsed + (16 + 12 * s.ports.msg.length) * d.toNat ∧ t.fault = s.fault

/-- 41_transmitter.md R121, R109, R110, R125 for TRANSMIT_REPEATED with a positive count: from acceptance, with a silent host, the block
emits exactly the repeated trace, one event a step, for every `GAP_MS` and either `GAP_AFTER_LAST`, and then is idle, with the line at
1. -/
def Obligations.TransmitRepeatedTrace : Prop :=
  ∀ (s : State) (ch : Channel) (d : BitVec 10) (more : Nat),
    s.hostMoves = [] → s.busy = false → s.cfgValid = true → s.channel = some ch → s.bitDuration = some d →
    (∀ bound, s.params.maxMsgLen = some bound → s.ports.msg.length ≤ bound) → s.ports.count.toInt = (more : Int) + 1 →
    ∃ u t : State, exec .transmitRepeated s = .next u
      ∧ EndsAfter u (repeatedTrace s.params ch d.toNat s.ports.msg more).length t
      ∧ t.trace = s.trace ++ repeatedTrace s.params ch d.toNat s.ports.msg more
      ∧ t.line = .level true
      ∧ t.elapsed = s.elapsed + sleepTotal (repeatedTrace s.params ch d.toNat s.ports.msg more) ∧ t.fault = s.fault

/-- 41_transmitter.md R123: an operation under way runs to completion: from every state of the invariant, with a silent host, the block
is idle after finitely many steps, having only added to the trace. -/
def Obligations.OperationsRunToCompletion : Prop :=
  ∀ s : State, s.Inv → s.hostMoves = [] →
    ∃ (n : Nat) (t : State) (events : List Event), EndsAfter s n t ∧ t.trace = s.trace ++ events ∧ events.length = n

/-- 41_transmitter.md R123, 20_memory.md R46 and 60_exceptions.md R142: while the block is busy, a command and a read, whatever they
are, leave the whole sequencer, the latched message and the trace as they are. -/
def Obligations.HostCannotDisturbOperation : Prop :=
  ∀ (s t : State) (m : HostMove) (rest : List HostMove), s.busy = true → s.hostMoves = m :: rest →
    ((∃ c, m = .command c) ∨ m = .readStatus ∨ m = .readEncResult) → step s = .next t →
    t = { s with
      hostMoves := rest, ports := t.ports, reads := t.reads, readFaults := t.readFaults, fault := t.fault }

/-! Invariants. -/

/-- The invariant holds right after reset (10_state.md R38). -/
def Obligations.InvariantAtReset : Prop := State.reset.Inv ∧ State.reset.SinkInv

/-- Every step keeps the block's invariant (10_state.md R24, R26 to R28, R30, R31; 41_transmitter.md R114 to R120). -/
def Obligations.InvariantKeptByEveryStep : Prop :=
  ∀ s t : State, s.Inv → step s = .next t → t.Inv

/-- Every step keeps the sink in agreement with the trace (10_state.md R33; 00_scope.md R12). -/
def Obligations.SinkAgreesWithTrace : Prop :=
  ∀ s t : State, s.SinkInv → step s = .next t → t.SinkInv

/-- 00_scope.md R10 and 20_memory.md R56: a step appends at most one event to the trace and never shortens it. -/
def Obligations.TraceGrowsByAtMostOneEvent : Prop :=
  ∀ s t : State, step s = .next t → t.trace = s.trace ∨ ∃ e, t.trace = s.trace ++ [e]

/-- 10_state.md R32: `CHANNEL` and `BIT_DURATION` are written only by the accepted CONFIGURE and cleared only by reset. -/
def Obligations.ConfigurationImmutable : Prop :=
  ∀ s t : State, step s = .next t → s.noResetNext →
    (t.channel = s.channel ∧ t.bitDuration = s.bitDuration ∧ t.cfgValid = s.cfgValid)
    ∨ (s.cfgValid = false ∧ s.busy = false ∧ ∃ c rest, s.hostMoves = .command c :: rest ∧ c.word = 0x1000
        ∧ 0 < c.ports.rate.toInt ∧ t.channel = some c.ports.channel ∧ t.cfgValid = true)

/-- 00_scope.md R7: the parameters are arguments of the model: no step changes them (log 3). -/
def Obligations.ParametersFixed : Prop :=
  ∀ s t : State, step s = .next t → t.params = s.params

/-! Noninterference. -/

/-- 41_transmitter.md R124: the line, the time passed and the draws (of which `INITIAL_LEVEL` is one) enter no event: two states of the
invariant that differ only there step to states that differ only there, and stop alike. -/
def Obligations.DrawsEnterNoEvent : Prop :=
  ∀ s t : State, s.Inv → s.SameTraffic t →
    (∀ s', step s = .next s' → ∃ t', step t = .next t' ∧ s'.SameTraffic t' ∧ t'.trace = s'.trace)
    ∧ (∀ f, step s = .fault f → step t = .fault f)
    ∧ ∀ r, step s = .refused r → step t = .refused r

/-- 30_encoding.md R71 "A port a command does not use is ignored by that command": changing the unused ports changes nothing but the
ports. -/
def Obligations.UnusedPortsIgnored : Prop :=
  ∀ (s t : State) (p : Ports),
    (∀ byte, exec (.encode byte) s = .next t → exec (.encode byte) { s with ports := p } = .next { t with ports := p })
    ∧ (∀ v, exec (.emitSymbol v) s = .next t → exec (.emitSymbol v) { s with ports := p } = .next { t with ports := p })
    ∧ (p.channel = s.ports.channel → p.rate = s.ports.rate → exec .configure s = .next t →
      exec .configure { s with ports := p } = .next { t with ports := p })
    ∧ (p.msg = s.ports.msg → exec .transmitOnce s = .next t →
      exec .transmitOnce { s with ports := p } = .next { t with ports := p })
    ∧ (p.msg = s.ports.msg → p.count = s.ports.count → exec .transmitRepeated s = .next t →
      exec .transmitRepeated { s with ports := p } = .next { t with ports := p })

/-! Decoding (30_encoding.md R70 to R76). -/

/-- The decoder and the encoder agree in both directions: no bit of a command is dropped, and a word has one meaning
(30_encoding.md R73, R75). -/
def Obligations.DecodeEncodeAgree : Prop :=
  ∀ (w : CmdWord) (i : Instr), decode w = some i ↔ encode i = w

/-- 30_encoding.md R74, R75: a word is illegal exactly when its `OPC` is reserved or a reserved `IMM` bit is 1; a word selects at most
one operation. -/
def Obligations.IllegalWordsExactly : Prop :=
  ∀ w : CmdWord,
    (decode w = none ↔ wordLegal w = false)
    ∧ (∀ o o' : Op, o.selectedBy w = true → o'.selectedBy w = true → o = o')
    ∧ (opcField w = 0x0 ∨ 0x6 ≤ (opcField w).toNat → decode w = none)

/-- Words written out from the encodings of 30_encoding.md R73 (95_test_vectors.md section 3.6) decode to what they stand for. -/
def Obligations.SpecWordsDecode : Prop :=
  decode 0x1000 = some .configure ∧ decode 0x20FF = some (.encode 0xFF) ∧ decode 0x2000 = some (.encode 0x00)
    ∧ decode 0x3001 = some (.emitSymbol true) ∧ decode 0x3000 = some (.emitSymbol false)
    ∧ decode 0x4000 = some .transmitOnce ∧ decode 0x5000 = some .transmitRepeated
    ∧ decode 0x0000 = none ∧ decode 0x1800 = none ∧ decode 0x2100 = none ∧ decode 0x3002 = none
    ∧ decode 0x4800 = none ∧ decode 0x5001 = none ∧ decode 0x6000 = none ∧ decode 0xFFFF = none

/-- A step runs the decoded command: where the host's next move is a command whose word decodes, the step drives its ports, takes the
move off the list and is exec of it; where the host is silent the step is the block's (30_encoding.md R70; 20_memory.md R57). -/
def Obligations.StepRunsDecodedCommand : Prop :=
  (∀ (s : State) (c : Command) (rest : List HostMove) (i : Instr), s.hostMoves = .command c :: rest →
    decode c.word = some i → step s = exec i { s with hostMoves := rest, ports := c.ports })
  ∧ ∀ s : State, s.hostMoves = [] → step s = s.blockStep

/-- The host that waits (70_reset_and_hazards.md R168 step 3; 20_memory.md R58): polling for `BUSY = 0`, it lets the block step while busy
and keeps polling, and makes its next move once the block is idle; a host that yields lets the block take one step. The moves are the
model's (log 1). -/
def Obligations.WaitingHostLetsBlockStep : Prop :=
  (∀ (s : State) (rest : List HostMove), s.hostMoves = .awaitIdle :: rest → s.busy = true → step s = s.blockStep)
  ∧ (∀ (s t : State) (rest : List HostMove), s.hostMoves = .awaitIdle :: rest → s.busy = true → step s = .next t →
    t.hostMoves = .awaitIdle :: rest)
  ∧ (∀ (s : State) (rest : List HostMove), s.hostMoves = .awaitIdle :: rest → s.busy = false →
    step s = .next { s with hostMoves := rest })
  ∧ ∀ (s : State) (rest : List HostMove), s.hostMoves = .yield :: rest →
    step s = State.blockStep { s with hostMoves := rest }

/-! Status, reads and reset (10_state.md R23 to R28, R38; 70_reset_and_hazards.md R165 to R167). -/

/-- 10_state.md R23, R25: the layout of STATUS, with `BUSY` exactly `PHASE != IDLE`. -/
def Obligations.StatusLayout : Prop :=
  ∀ s : State,
    s.status.getLsbD 0 = s.cfgValid ∧ s.status.getLsbD 1 = s.busy ∧ s.status.getLsbD 2 = s.cfgErr
    ∧ s.status.getLsbD 3 = false ∧ s.status.extractLsb' 4 4 = s.fault
    ∧ (s.busy = true ↔ s.phase ≠ .idle)

/-- 10_state.md R23, R34 and 20_memory.md R54: the host's reads change nothing but the host's record; a read of `ENC_RESULT` unwritten
gives no value, its fault is recorded (U8: "record a fault, never final"; the record is the model's own, log 9) and the machine goes
on. -/
def Obligations.HostReadsHaveNoSideEffect : Prop :=
  (∀ (s : State) (rest : List HostMove), s.hostMoves = .readStatus :: rest →
    step s = .next { s with hostMoves := rest, reads := s.reads ++ [.status s.status] })
  ∧ (∀ (s : State) (rest : List HostMove) (w : BitVec 16), s.hostMoves = .readEncResult :: rest → s.encResult = some w →
    step s = .next { s with hostMoves := rest, reads := s.reads ++ [.encResult w] })
  ∧ ∀ (s : State) (rest : List HostMove), s.hostMoves = .readEncResult :: rest → s.encResult = none →
    step s = .next { s with hostMoves := rest, readFaults := s.readFaults ++ [.encResult] }

/-- 10_state.md R38 with 70_reset_and_hazards.md R165, R167: every register's value after power-on, STATUS 0x00, the trace empty and the
line unknown; a reset between two steps gives every block register the same value, emits nothing and leaves the sink and its
record as they are. -/
def Obligations.ResetValues : Prop :=
  (State.reset.cfgValid = false ∧ State.reset.busy = false ∧ State.reset.cfgErr = false ∧ State.reset.fault = 0
    ∧ State.reset.encResult = none ∧ State.reset.channel = none ∧ State.reset.bitDuration = none
    ∧ State.reset.phase = .idle ∧ State.reset.k = 0 ∧ State.reset.ci = 0 ∧ State.reset.rep = 0
    ∧ State.reset.sub = .level ∧ State.reset.cw = none ∧ State.reset.emitV = none ∧ State.reset.trail = false
    ∧ State.reset.msg = [] ∧ State.reset.trace = [] ∧ State.reset.line = .unknown ∧ State.reset.status = 0x00)
  ∧ ∀ (s : State) (rest : List HostMove), s.hostMoves = .reset :: rest →
    ∃ t : State, step s = .next t ∧ t.status = 0x00 ∧ t = { s with
      hostMoves := rest
      cfgValid := false, cfgErr := false, fault := 0, encResult := none, channel := none, bitDuration := none
      phase := .idle, k := 0, ci := 0, cw := none, rep := 0, sub := .level, emitV := none, trail := false, msg := [] }

/-- 70_reset_and_hazards.md R166: reset during a `Sleep(ms)` leaves the `Sleep` in the trace, abandons the operation, and lets anything
from 0 to `ms` milliseconds have passed. Where the block's next step is no `Sleep` the same move is a reset between two steps (R165; the
move is the model's, log 8). -/
def Obligations.ResetInSleepAbandons : Prop :=
  (∀ (s : State) (rest : List HostMove) (ms : Nat), s.hostMoves = .resetInSleep :: rest →
    ((s.sub = .wait ∧ (s.phase = .single ∨ s.phase = .pre ∨ s.phase = .data ∨ s.phase = .post)
        ∧ ∃ d, s.bitDuration = some d ∧ d.toNat = ms)
      ∨ ((s.phase = .gap ∨ s.phase = .tailGap) ∧ s.params.gapMs = ms)) →
    ∃ t : State, step s = .next t ∧ s.elapsed ≤ t.elapsed ∧ t.elapsed ≤ s.elapsed + ms
      ∧ t = { s with
          hostMoves := rest
          cfgValid := false, cfgErr := false, fault := 0, encResult := none, channel := none, bitDuration := none
          phase := .idle, k := 0, ci := 0, cw := none, rep := 0, sub := .level, emitV := none, trail := false, msg := []
          trace := s.trace ++ [.sleep ms]
          elapsed := t.elapsed
          draws := t.draws })
  ∧ ∀ (s : State) (rest : List HostMove), s.hostMoves = .resetInSleep :: rest →
    (s.phase = .idle
      ∨ (s.sub = .level ∧ (s.phase = .single ∨ s.phase = .pre ∨ s.phase = .data ∨ s.phase = .post))) →
    step s = .next { s with
      hostMoves := rest
      cfgValid := false, cfgErr := false, fault := 0, encResult := none, channel := none, bitDuration := none
      phase := .idle, k := 0, ci := 0, cw := none, rep := 0, sub := .level, emitV := none, trail := false, msg := [] }

/-! Several instances (10_state.md R39; 60_exceptions.md R158; 70_reset_and_hazards.md R175). -/

/-- Instances share nothing: a step of one leaves every other as it was, and is that instance's own step (10_state.md R39). Two clauses
are the model's reading (log 15): that no two instances hold one channel afterwards (DEDUCED from 70_reset_and_hazards.md R175), and that
the instances draw their free values at one counter, which never goes back (DESIGN CHOICE: no two draws are related). -/
def Obligations.InstancesIndependent : Prop :=
  ∀ (sys sys' : System) (n : Fin sys.instances.length), sys.stepAt n = .next sys' →
    sys'.instances.length = sys.instances.length
    ∧ (∀ j : Nat, j ≠ n.val → sys'.instances[j]? = sys.instances[j]?)
    ∧ (∃ t, step { sys.instances[n.val] with draws := sys.draws } = .next t ∧ sys'.instances[n.val]? = some t
      ∧ sys'.draws = t.draws)
    ∧ sys'.channels.Nodup
    ∧ sys.draws ≤ sys'.draws

/-- 70_reset_and_hazards.md R175: a step after which two instances hold one channel is refused. That the refusal falls on that step is
the model's reading of R175's "must refuse the configuration" (DEDUCED, log 15). -/
def Obligations.SharedChannelRefused : Prop :=
  ∀ (sys : System) (n : Fin sys.instances.length) (t : State) (j : Nat) (u : State) (ch : Channel),
    step { sys.instances[n.val] with draws := sys.draws } = .next t → t.channel = some ch →
    j ≠ n.val → sys.instances[j]? = some u → u.channel = some ch →
    sys.stepAt n = .refused .sharedChannel

/-! The assembler (30_encoding.md R77 to R79). -/

/-- 30_encoding.md R77, R78: a line is assembled exactly when its numbers and its message are well formed. -/
def Obligations.AssembleExactlyWellFormed : Prop :=
  ∀ line : AsmLine, (assemble line).isSome = line.wellFormed

/-- 30_encoding.md R77, R78, R79: the word and the ports of each well-formed line; a CONFIGURE with no rate is one with rate 10. -/
def Obligations.AssembledCommands : Prop :=
  (∀ (ch : Channel) (rate : Int), inSigned32 rate = true →
    ∃ c, assemble (.configure ch (some rate)) = some c ∧ c.word = 0x1000 ∧ c.ports.channel = ch ∧ c.ports.rate.toInt = rate)
  ∧ (∀ ch : Channel, assemble (.configure ch none) = assemble (.configure ch (some 10)))
  ∧ (∀ byte : Nat, byte ≤ 255 →
    ∃ c, assemble (.encode byte) = some c ∧ c.word.toNat = 0x2000 ||| byte ∧ decode c.word = some (.encode (BitVec.ofNat 8 byte)))
  ∧ (∀ v : Nat, v ≤ 1 → ∃ c, assemble (.emitSymbol v) = some c ∧ c.word.toNat = 0x3000 ||| v)
  ∧ (∀ values : List Nat, (∀ b ∈ values, b ≤ 255) →
    ∃ c, assemble (.transmitOnce (.bytes values)) = some c ∧ c.word = 0x4000 ∧ c.ports.msg.map BitVec.toNat = values)
  ∧ (∀ (chars : List Char) (m : List Byte), literalBytes chars = some m →
    ∃ c, assemble (.transmitOnce (.literal chars)) = some c ∧ c.word = 0x4000 ∧ c.ports.msg = m)
  ∧ (∀ (values : List Nat) (count : Int), (∀ b ∈ values, b ≤ 255) → inSigned32 count = true →
    ∃ c, assemble (.transmitRepeated (.bytes values) count) = some c ∧ c.word = 0x5000
      ∧ c.ports.msg.map BitVec.toNat = values ∧ c.ports.count.toInt = count)
  ∧ ∀ (chars : List Char) (m : List Byte) (count : Int), literalBytes chars = some m → inSigned32 count = true →
    ∃ c, assemble (.transmitRepeated (.literal chars) count) = some c ∧ c.word = 0x5000
      ∧ c.ports.msg = m ∧ c.ports.count.toInt = count

/-- 30_encoding.md R79: what a string literal stands for, from its first character on: nothing for the empty literal (no terminating
zero); a plain character's code before the bytes of the rest; for the three escapes 0x22, 0x5C and the byte they name; and so, for a
literal of plain characters, their codes in order. -/
def Obligations.StringLiteralBytes : Prop :=
  literalBytes [] = some []
  ∧ (∀ (c : Char) (rest : List Char) (bytes : List Byte), plainChar c = true → literalBytes rest = some bytes →
    literalBytes (c :: rest) = some (BitVec.ofNat 8 c.toNat :: bytes))
  ∧ (∀ (rest : List Char) (bytes : List Byte), literalBytes rest = some bytes →
    literalBytes (backslashChar :: quoteChar :: rest) = some (0x22 :: bytes)
    ∧ literalBytes (backslashChar :: backslashChar :: rest) = some (0x5C :: bytes)
    ∧ ∀ (h l : Char) (hi lo : Nat), hexDigit? h = some hi → hexDigit? l = some lo →
      literalBytes (backslashChar :: 'x' :: h :: l :: rest) = some (BitVec.ofNat 8 (16 * hi + lo) :: bytes))
  ∧ ∀ chars : List Char, chars.all plainChar = true →
    ∃ bytes, literalBytes chars = some bytes ∧ bytes.map BitVec.toNat = chars.map Char.toNat
end

