-- ==== Sys2Proof/Laws/State.lean ====
section
/-! SUPPORT. One lemma per field and named update of State: what the update leaves and what it sets. -/

namespace Sys2Proof.Machine

variable (s : State)

/-! Recording a fault (60_exceptions.md R144). -/

@[simp] theorem State.raise_cfgValid (f : CmdFault) : (s.raise f).cfgValid = s.cfgValid := rfl
@[simp] theorem State.raise_cfgErr (f : CmdFault) : (s.raise f).cfgErr = s.cfgErr := rfl
@[simp] theorem State.raise_fault (f : CmdFault) :
    (s.raise f).fault = if s.fault = 0 then f.code else s.fault := rfl
@[simp] theorem State.raise_encResult (f : CmdFault) : (s.raise f).encResult = s.encResult := rfl
@[simp] theorem State.raise_channel (f : CmdFault) : (s.raise f).channel = s.channel := rfl
@[simp] theorem State.raise_bitDuration (f : CmdFault) : (s.raise f).bitDuration = s.bitDuration := rfl
@[simp] theorem State.raise_phase (f : CmdFault) : (s.raise f).phase = s.phase := rfl
@[simp] theorem State.raise_k (f : CmdFault) : (s.raise f).k = s.k := rfl
@[simp] theorem State.raise_ci (f : CmdFault) : (s.raise f).ci = s.ci := rfl
@[simp] theorem State.raise_cw (f : CmdFault) : (s.raise f).cw = s.cw := rfl
@[simp] theorem State.raise_rep (f : CmdFault) : (s.raise f).rep = s.rep := rfl
@[simp] theorem State.raise_sub (f : CmdFault) : (s.raise f).sub = s.sub := rfl
@[simp] theorem State.raise_emitV (f : CmdFault) : (s.raise f).emitV = s.emitV := rfl
@[simp] theorem State.raise_trail (f : CmdFault) : (s.raise f).trail = s.trail := rfl
@[simp] theorem State.raise_msg (f : CmdFault) : (s.raise f).msg = s.msg := rfl
@[simp] theorem State.raise_trace (f : CmdFault) : (s.raise f).trace = s.trace := rfl
@[simp] theorem State.raise_line (f : CmdFault) : (s.raise f).line = s.line := rfl
@[simp] theorem State.raise_elapsed (f : CmdFault) : (s.raise f).elapsed = s.elapsed := rfl
@[simp] theorem State.raise_draws (f : CmdFault) : (s.raise f).draws = s.draws := rfl
@[simp] theorem State.raise_hostMoves (f : CmdFault) : (s.raise f).hostMoves = s.hostMoves := rfl
@[simp] theorem State.raise_ports (f : CmdFault) : (s.raise f).ports = s.ports := rfl
@[simp] theorem State.raise_reads (f : CmdFault) : (s.raise f).reads = s.reads := rfl
@[simp] theorem State.raise_readFaults (f : CmdFault) : (s.raise f).readFaults = s.readFaults := rfl
@[simp] theorem State.raise_params (f : CmdFault) : (s.raise f).params = s.params := rfl

/-! Emitting an event (00_scope.md R10). -/

@[simp] theorem State.emit_cfgValid (e : Event) : (s.emit e).cfgValid = s.cfgValid := by cases e <;> rfl
@[simp] theorem State.emit_cfgErr (e : Event) : (s.emit e).cfgErr = s.cfgErr := by cases e <;> rfl
@[simp] theorem State.emit_fault (e : Event) : (s.emit e).fault = s.fault := by cases e <;> rfl
@[simp] theorem State.emit_encResult (e : Event) : (s.emit e).encResult = s.encResult := by cases e <;> rfl
@[simp] theorem State.emit_channel (e : Event) : (s.emit e).channel = s.channel := by cases e <;> rfl
@[simp] theorem State.emit_bitDuration (e : Event) : (s.emit e).bitDuration = s.bitDuration := by cases e <;> rfl
@[simp] theorem State.emit_phase (e : Event) : (s.emit e).phase = s.phase := by cases e <;> rfl
@[simp] theorem State.emit_k (e : Event) : (s.emit e).k = s.k := by cases e <;> rfl
@[simp] theorem State.emit_ci (e : Event) : (s.emit e).ci = s.ci := by cases e <;> rfl
@[simp] theorem State.emit_cw (e : Event) : (s.emit e).cw = s.cw := by cases e <;> rfl
@[simp] theorem State.emit_rep (e : Event) : (s.emit e).rep = s.rep := by cases e <;> rfl
@[simp] theorem State.emit_sub (e : Event) : (s.emit e).sub = s.sub := by cases e <;> rfl
@[simp] theorem State.emit_emitV (e : Event) : (s.emit e).emitV = s.emitV := by cases e <;> rfl
@[simp] theorem State.emit_trail (e : Event) : (s.emit e).trail = s.trail := by cases e <;> rfl
@[simp] theorem State.emit_msg (e : Event) : (s.emit e).msg = s.msg := by cases e <;> rfl
@[simp] theorem State.emit_trace (e : Event) : (s.emit e).trace = s.trace ++ [e] := rfl
@[simp] theorem State.emit_configureAsOutput_line (ch : Channel) :
    (s.emit (.configureAsOutput ch)).line = .level (Config.initialLevel s.draws) := rfl
@[simp] theorem State.emit_setLevel_line (ch : Channel) (v : Bool) : (s.emit (.setLevel ch v)).line = .level v := rfl
@[simp] theorem State.emit_sleep_line (ms : Nat) : (s.emit (.sleep ms)).line = s.line := rfl
@[simp] theorem State.emit_configureAsOutput_elapsed (ch : Channel) :
    (s.emit (.configureAsOutput ch)).elapsed = s.elapsed := rfl
@[simp] theorem State.emit_setLevel_elapsed (ch : Channel) (v : Bool) : (s.emit (.setLevel ch v)).elapsed = s.elapsed := rfl
@[simp] theorem State.emit_sleep_elapsed (ms : Nat) : (s.emit (.sleep ms)).elapsed = s.elapsed + ms := rfl
@[simp] theorem State.emit_configureAsOutput_draws (ch : Channel) :
    (s.emit (.configureAsOutput ch)).draws = s.draws + 1 := rfl
@[simp] theorem State.emit_setLevel_draws (ch : Channel) (v : Bool) : (s.emit (.setLevel ch v)).draws = s.draws := rfl
@[simp] theorem State.emit_sleep_draws (ms : Nat) : (s.emit (.sleep ms)).draws = s.draws := rfl
@[simp] theorem State.emit_hostMoves (e : Event) : (s.emit e).hostMoves = s.hostMoves := by cases e <;> rfl
@[simp] theorem State.emit_ports (e : Event) : (s.emit e).ports = s.ports := by cases e <;> rfl
@[simp] theorem State.emit_reads (e : Event) : (s.emit e).reads = s.reads := by cases e <;> rfl
@[simp] theorem State.emit_readFaults (e : Event) : (s.emit e).readFaults = s.readFaults := by cases e <;> rfl
@[simp] theorem State.emit_params (e : Event) : (s.emit e).params = s.params := by cases e <;> rfl

/-! A sleep cut short by reset (70_reset_and_hazards.md R166). -/

@[simp] theorem State.emitCutSleep_cfgValid (ms : Nat) :
    (s.emitCutSleep ms).cfgValid = s.cfgValid := rfl
@[simp] theorem State.emitCutSleep_cfgErr (ms : Nat) :
    (s.emitCutSleep ms).cfgErr = s.cfgErr := rfl
@[simp] theorem State.emitCutSleep_fault (ms : Nat) :
    (s.emitCutSleep ms).fault = s.fault := rfl
@[simp] theorem State.emitCutSleep_encResult (ms : Nat) :
    (s.emitCutSleep ms).encResult = s.encResult := rfl
@[simp] theorem State.emitCutSleep_channel (ms : Nat) :
    (s.emitCutSleep ms).channel = s.channel := rfl
@[simp] theorem State.emitCutSleep_bitDuration (ms : Nat) :
    (s.emitCutSleep ms).bitDuration = s.bitDuration := rfl
@[simp] theorem State.emitCutSleep_phase (ms : Nat) :
    (s.emitCutSleep ms).phase = s.phase := rfl
@[simp] theorem State.emitCutSleep_k (ms : Nat) :
    (s.emitCutSleep ms).k = s.k := rfl
@[simp] theorem State.emitCutSleep_ci (ms : Nat) :
    (s.emitCutSleep ms).ci = s.ci := rfl
@[simp] theorem State.emitCutSleep_cw (ms : Nat) :
    (s.emitCutSleep ms).cw = s.cw := rfl
@[simp] theorem State.emitCutSleep_rep (ms : Nat) :
    (s.emitCutSleep ms).rep = s.rep := rfl
@[simp] theorem State.emitCutSleep_sub (ms : Nat) :
    (s.emitCutSleep ms).sub = s.sub := rfl
@[simp] theorem State.emitCutSleep_emitV (ms : Nat) :
    (s.emitCutSleep ms).emitV = s.emitV := rfl
@[simp] theorem State.emitCutSleep_trail (ms : Nat) :
    (s.emitCutSleep ms).trail = s.trail := rfl
@[simp] theorem State.emitCutSleep_msg (ms : Nat) :
    (s.emitCutSleep ms).msg = s.msg := rfl
@[simp] theorem State.emitCutSleep_trace (ms : Nat) :
    (s.emitCutSleep ms).trace = s.trace ++ [.sleep ms] := rfl
@[simp] theorem State.emitCutSleep_line (ms : Nat) :
    (s.emitCutSleep ms).line = s.line := rfl
@[simp] theorem State.emitCutSleep_elapsed (ms : Nat) :
    (s.emitCutSleep ms).elapsed = s.elapsed + min (Config.sleptBeforeReset s.draws) ms := rfl
@[simp] theorem State.emitCutSleep_draws (ms : Nat) :
    (s.emitCutSleep ms).draws = s.draws + 1 := rfl
@[simp] theorem State.emitCutSleep_hostMoves (ms : Nat) :
    (s.emitCutSleep ms).hostMoves = s.hostMoves := rfl
@[simp] theorem State.emitCutSleep_ports (ms : Nat) :
    (s.emitCutSleep ms).ports = s.ports := rfl
@[simp] theorem State.emitCutSleep_reads (ms : Nat) :
    (s.emitCutSleep ms).reads = s.reads := rfl
@[simp] theorem State.emitCutSleep_readFaults (ms : Nat) :
    (s.emitCutSleep ms).readFaults = s.readFaults := rfl
@[simp] theorem State.emitCutSleep_params (ms : Nat) :
    (s.emitCutSleep ms).params = s.params := rfl

/-! Reset of the block (70_reset_and_hazards.md R165, R167). -/

@[simp] theorem State.blockReset_cfgValid : s.blockReset.cfgValid = false := rfl
@[simp] theorem State.blockReset_cfgErr : s.blockReset.cfgErr = false := rfl
@[simp] theorem State.blockReset_fault : s.blockReset.fault = 0 := rfl
@[simp] theorem State.blockReset_encResult : s.blockReset.encResult = none := rfl
@[simp] theorem State.blockReset_channel : s.blockReset.channel = none := rfl
@[simp] theorem State.blockReset_bitDuration : s.blockReset.bitDuration = none := rfl
@[simp] theorem State.blockReset_phase : s.blockReset.phase = .idle := rfl
@[simp] theorem State.blockReset_k : s.blockReset.k = 0 := rfl
@[simp] theorem State.blockReset_ci : s.blockReset.ci = 0 := rfl
@[simp] theorem State.blockReset_cw : s.blockReset.cw = none := rfl
@[simp] theorem State.blockReset_rep : s.blockReset.rep = 0 := rfl
@[simp] theorem State.blockReset_sub : s.blockReset.sub = .level := rfl
@[simp] theorem State.blockReset_emitV : s.blockReset.emitV = none := rfl
@[simp] theorem State.blockReset_trail : s.blockReset.trail = false := rfl
@[simp] theorem State.blockReset_msg : s.blockReset.msg = [] := rfl
@[simp] theorem State.blockReset_trace : s.blockReset.trace = s.trace := rfl
@[simp] theorem State.blockReset_line : s.blockReset.line = s.line := rfl
@[simp] theorem State.blockReset_elapsed : s.blockReset.elapsed = s.elapsed := rfl
@[simp] theorem State.blockReset_draws : s.blockReset.draws = s.draws := rfl
@[simp] theorem State.blockReset_hostMoves : s.blockReset.hostMoves = s.hostMoves := rfl
@[simp] theorem State.blockReset_ports : s.blockReset.ports = s.ports := rfl
@[simp] theorem State.blockReset_reads : s.blockReset.reads = s.reads := rfl
@[simp] theorem State.blockReset_readFaults : s.blockReset.readFaults = s.readFaults := rfl
@[simp] theorem State.blockReset_params : s.blockReset.params = s.params := rfl

/-! Starting frames (41_transmitter.md R105, R109). -/

@[simp] theorem State.startFrames_cfgValid (rep : Nat) (trail : Bool) :
    (s.startFrames rep trail).cfgValid = s.cfgValid := rfl
@[simp] theorem State.startFrames_cfgErr (rep : Nat) (trail : Bool) :
    (s.startFrames rep trail).cfgErr = s.cfgErr := rfl
@[simp] theorem State.startFrames_fault (rep : Nat) (trail : Bool) :
    (s.startFrames rep trail).fault = s.fault := rfl
@[simp] theorem State.startFrames_encResult (rep : Nat) (trail : Bool) :
    (s.startFrames rep trail).encResult = s.encResult := rfl
@[simp] theorem State.startFrames_channel (rep : Nat) (trail : Bool) :
    (s.startFrames rep trail).channel = s.channel := rfl
@[simp] theorem State.startFrames_bitDuration (rep : Nat) (trail : Bool) :
    (s.startFrames rep trail).bitDuration = s.bitDuration := rfl
@[simp] theorem State.startFrames_phase (rep : Nat) (trail : Bool) :
    (s.startFrames rep trail).phase = .pre := rfl
@[simp] theorem State.startFrames_k (rep : Nat) (trail : Bool) :
    (s.startFrames rep trail).k = 0 := rfl
@[simp] theorem State.startFrames_ci (rep : Nat) (trail : Bool) :
    (s.startFrames rep trail).ci = 0 := rfl
@[simp] theorem State.startFrames_cw (rep : Nat) (trail : Bool) :
    (s.startFrames rep trail).cw = s.cw := rfl
@[simp] theorem State.startFrames_rep (rep : Nat) (trail : Bool) :
    (s.startFrames rep trail).rep = rep := rfl
@[simp] theorem State.startFrames_sub (rep : Nat) (trail : Bool) :
    (s.startFrames rep trail).sub = .level := rfl
@[simp] theorem State.startFrames_emitV (rep : Nat) (trail : Bool) :
    (s.startFrames rep trail).emitV = s.emitV := rfl
@[simp] theorem State.startFrames_trail (rep : Nat) (trail : Bool) :
    (s.startFrames rep trail).trail = trail := rfl
@[simp] theorem State.startFrames_msg (rep : Nat) (trail : Bool) :
    (s.startFrames rep trail).msg = s.ports.msg := rfl
@[simp] theorem State.startFrames_trace (rep : Nat) (trail : Bool) :
    (s.startFrames rep trail).trace = s.trace := rfl
@[simp] theorem State.startFrames_line (rep : Nat) (trail : Bool) :
    (s.startFrames rep trail).line = s.line := rfl
@[simp] theorem State.startFrames_elapsed (rep : Nat) (trail : Bool) :
    (s.startFrames rep trail).elapsed = s.elapsed := rfl
@[simp] theorem State.startFrames_draws (rep : Nat) (trail : Bool) :
    (s.startFrames rep trail).draws = s.draws := rfl
@[simp] theorem State.startFrames_hostMoves (rep : Nat) (trail : Bool) :
    (s.startFrames rep trail).hostMoves = s.hostMoves := rfl
@[simp] theorem State.startFrames_ports (rep : Nat) (trail : Bool) :
    (s.startFrames rep trail).ports = s.ports := rfl
@[simp] theorem State.startFrames_reads (rep : Nat) (trail : Bool) :
    (s.startFrames rep trail).reads = s.reads := rfl
@[simp] theorem State.startFrames_readFaults (rep : Nat) (trail : Bool) :
    (s.startFrames rep trail).readFaults = s.readFaults := rfl
@[simp] theorem State.startFrames_params (rep : Nat) (trail : Bool) :
    (s.startFrames rep trail).params = s.params := rfl

/-! The end of a marker or codeword (41_transmitter.md R115, R116): all but CW and PHASE stay. -/

@[simp] theorem State.nextCodeword_cfgValid : s.nextCodeword.cfgValid = s.cfgValid := by
  unfold State.nextCodeword; split <;> rfl
@[simp] theorem State.nextCodeword_cfgErr : s.nextCodeword.cfgErr = s.cfgErr := by
  unfold State.nextCodeword; split <;> rfl
@[simp] theorem State.nextCodeword_fault : s.nextCodeword.fault = s.fault := by
  unfold State.nextCodeword; split <;> rfl
@[simp] theorem State.nextCodeword_encResult : s.nextCodeword.encResult = s.encResult := by
  unfold State.nextCodeword; split <;> rfl
@[simp] theorem State.nextCodeword_channel : s.nextCodeword.channel = s.channel := by
  unfold State.nextCodeword; split <;> rfl
@[simp] theorem State.nextCodeword_bitDuration : s.nextCodeword.bitDuration = s.bitDuration := by
  unfold State.nextCodeword; split <;> rfl
@[simp] theorem State.nextCodeword_k : s.nextCodeword.k = s.k := by
  unfold State.nextCodeword; split <;> rfl
@[simp] theorem State.nextCodeword_ci : s.nextCodeword.ci = s.ci := by
  unfold State.nextCodeword; split <;> rfl
@[simp] theorem State.nextCodeword_rep : s.nextCodeword.rep = s.rep := by
  unfold State.nextCodeword; split <;> rfl
@[simp] theorem State.nextCodeword_sub : s.nextCodeword.sub = s.sub := by
  unfold State.nextCodeword; split <;> rfl
@[simp] theorem State.nextCodeword_emitV : s.nextCodeword.emitV = s.emitV := by
  unfold State.nextCodeword; split <;> rfl
@[simp] theorem State.nextCodeword_trail : s.nextCodeword.trail = s.trail := by
  unfold State.nextCodeword; split <;> rfl
@[simp] theorem State.nextCodeword_msg : s.nextCodeword.msg = s.msg := by
  unfold State.nextCodeword; split <;> rfl
@[simp] theorem State.nextCodeword_trace : s.nextCodeword.trace = s.trace := by
  unfold State.nextCodeword; split <;> rfl
@[simp] theorem State.nextCodeword_line : s.nextCodeword.line = s.line := by
  unfold State.nextCodeword; split <;> rfl
@[simp] theorem State.nextCodeword_elapsed : s.nextCodeword.elapsed = s.elapsed := by
  unfold State.nextCodeword; split <;> rfl
@[simp] theorem State.nextCodeword_draws : s.nextCodeword.draws = s.draws := by
  unfold State.nextCodeword; split <;> rfl
@[simp] theorem State.nextCodeword_hostMoves : s.nextCodeword.hostMoves = s.hostMoves := by
  unfold State.nextCodeword; split <;> rfl
@[simp] theorem State.nextCodeword_ports : s.nextCodeword.ports = s.ports := by
  unfold State.nextCodeword; split <;> rfl
@[simp] theorem State.nextCodeword_reads : s.nextCodeword.reads = s.reads := by
  unfold State.nextCodeword; split <;> rfl
@[simp] theorem State.nextCodeword_readFaults : s.nextCodeword.readFaults = s.readFaults := by
  unfold State.nextCodeword; split <;> rfl
@[simp] theorem State.nextCodeword_params : s.nextCodeword.params = s.params := by
  unfold State.nextCodeword; split <;> rfl

/-! The end of a frame (41_transmitter.md R117): all but PHASE stay. -/

@[simp] theorem State.endFrame_cfgValid : s.endFrame.cfgValid = s.cfgValid := by
  unfold State.endFrame; repeat' split
  all_goals rfl
@[simp] theorem State.endFrame_cfgErr : s.endFrame.cfgErr = s.cfgErr := by
  unfold State.endFrame; repeat' split
  all_goals rfl
@[simp] theorem State.endFrame_fault : s.endFrame.fault = s.fault := by
  unfold State.endFrame; repeat' split
  all_goals rfl
@[simp] theorem State.endFrame_encResult : s.endFrame.encResult = s.encResult := by
  unfold State.endFrame; repeat' split
  all_goals rfl
@[simp] theorem State.endFrame_channel : s.endFrame.channel = s.channel := by
  unfold State.endFrame; repeat' split
  all_goals rfl
@[simp] theorem State.endFrame_bitDuration : s.endFrame.bitDuration = s.bitDuration := by
  unfold State.endFrame; repeat' split
  all_goals rfl
@[simp] theorem State.endFrame_k : s.endFrame.k = s.k := by
  unfold State.endFrame; repeat' split
  all_goals rfl
@[simp] theorem State.endFrame_ci : s.endFrame.ci = s.ci := by
  unfold State.endFrame; repeat' split
  all_goals rfl
@[simp] theorem State.endFrame_cw : s.endFrame.cw = s.cw := by
  unfold State.endFrame; repeat' split
  all_goals rfl
@[simp] theorem State.endFrame_rep : s.endFrame.rep = s.rep := by
  unfold State.endFrame; repeat' split
  all_goals rfl
@[simp] theorem State.endFrame_sub : s.endFrame.sub = s.sub := by
  unfold State.endFrame; repeat' split
  all_goals rfl
@[simp] theorem State.endFrame_emitV : s.endFrame.emitV = s.emitV := by
  unfold State.endFrame; repeat' split
  all_goals rfl
@[simp] theorem State.endFrame_trail : s.endFrame.trail = s.trail := by
  unfold State.endFrame; repeat' split
  all_goals rfl
@[simp] theorem State.endFrame_msg : s.endFrame.msg = s.msg := by
  unfold State.endFrame; repeat' split
  all_goals rfl
@[simp] theorem State.endFrame_trace : s.endFrame.trace = s.trace := by
  unfold State.endFrame; repeat' split
  all_goals rfl
@[simp] theorem State.endFrame_line : s.endFrame.line = s.line := by
  unfold State.endFrame; repeat' split
  all_goals rfl
@[simp] theorem State.endFrame_elapsed : s.endFrame.elapsed = s.elapsed := by
  unfold State.endFrame; repeat' split
  all_goals rfl
@[simp] theorem State.endFrame_draws : s.endFrame.draws = s.draws := by
  unfold State.endFrame; repeat' split
  all_goals rfl
@[simp] theorem State.endFrame_hostMoves : s.endFrame.hostMoves = s.hostMoves := by
  unfold State.endFrame; repeat' split
  all_goals rfl
@[simp] theorem State.endFrame_ports : s.endFrame.ports = s.ports := by
  unfold State.endFrame; repeat' split
  all_goals rfl
@[simp] theorem State.endFrame_reads : s.endFrame.reads = s.reads := by
  unfold State.endFrame; repeat' split
  all_goals rfl
@[simp] theorem State.endFrame_readFaults : s.endFrame.readFaults = s.readFaults := by
  unfold State.endFrame; repeat' split
  all_goals rfl
@[simp] theorem State.endFrame_params : s.endFrame.params = s.params := by
  unfold State.endFrame; repeat' split
  all_goals rfl

/-! The end of a sleep (41_transmitter.md R115 to R120): what no phase's updates touch. -/

@[simp] theorem State.afterSleep_cfgValid : s.afterSleep.cfgValid = s.cfgValid := by
  unfold State.afterSleep; repeat' split
  all_goals simp
@[simp] theorem State.afterSleep_cfgErr : s.afterSleep.cfgErr = s.cfgErr := by
  unfold State.afterSleep; repeat' split
  all_goals simp
@[simp] theorem State.afterSleep_fault : s.afterSleep.fault = s.fault := by
  unfold State.afterSleep; repeat' split
  all_goals simp
@[simp] theorem State.afterSleep_encResult : s.afterSleep.encResult = s.encResult := by
  unfold State.afterSleep; repeat' split
  all_goals simp
@[simp] theorem State.afterSleep_channel : s.afterSleep.channel = s.channel := by
  unfold State.afterSleep; repeat' split
  all_goals simp
@[simp] theorem State.afterSleep_bitDuration : s.afterSleep.bitDuration = s.bitDuration := by
  unfold State.afterSleep; repeat' split
  all_goals simp
@[simp] theorem State.afterSleep_emitV : s.afterSleep.emitV = s.emitV := by
  unfold State.afterSleep; repeat' split
  all_goals simp
@[simp] theorem State.afterSleep_msg : s.afterSleep.msg = s.msg := by
  unfold State.afterSleep; repeat' split
  all_goals simp
@[simp] theorem State.afterSleep_trace : s.afterSleep.trace = s.trace := by
  unfold State.afterSleep; repeat' split
  all_goals simp
@[simp] theorem State.afterSleep_line : s.afterSleep.line = s.line := by
  unfold State.afterSleep; repeat' split
  all_goals simp
@[simp] theorem State.afterSleep_elapsed : s.afterSleep.elapsed = s.elapsed := by
  unfold State.afterSleep; repeat' split
  all_goals simp
@[simp] theorem State.afterSleep_draws : s.afterSleep.draws = s.draws := by
  unfold State.afterSleep; repeat' split
  all_goals simp
@[simp] theorem State.afterSleep_hostMoves : s.afterSleep.hostMoves = s.hostMoves := by
  unfold State.afterSleep; repeat' split
  all_goals simp
@[simp] theorem State.afterSleep_ports : s.afterSleep.ports = s.ports := by
  unfold State.afterSleep; repeat' split
  all_goals simp
@[simp] theorem State.afterSleep_reads : s.afterSleep.reads = s.reads := by
  unfold State.afterSleep; repeat' split
  all_goals simp
@[simp] theorem State.afterSleep_readFaults : s.afterSleep.readFaults = s.readFaults := by
  unfold State.afterSleep; repeat' split
  all_goals simp
@[simp] theorem State.afterSleep_params : s.afterSleep.params = s.params := by
  unfold State.afterSleep; repeat' split
  all_goals simp

/-! The host's read of STATUS (10_state.md R23). -/

@[simp] theorem State.hostReadsStatus_cfgValid : s.hostReadsStatus.cfgValid = s.cfgValid := rfl
@[simp] theorem State.hostReadsStatus_cfgErr : s.hostReadsStatus.cfgErr = s.cfgErr := rfl
@[simp] theorem State.hostReadsStatus_fault : s.hostReadsStatus.fault = s.fault := rfl
@[simp] theorem State.hostReadsStatus_encResult : s.hostReadsStatus.encResult = s.encResult := rfl
@[simp] theorem State.hostReadsStatus_channel : s.hostReadsStatus.channel = s.channel := rfl
@[simp] theorem State.hostReadsStatus_bitDuration : s.hostReadsStatus.bitDuration = s.bitDuration := rfl
@[simp] theorem State.hostReadsStatus_phase : s.hostReadsStatus.phase = s.phase := rfl
@[simp] theorem State.hostReadsStatus_k : s.hostReadsStatus.k = s.k := rfl
@[simp] theorem State.hostReadsStatus_ci : s.hostReadsStatus.ci = s.ci := rfl
@[simp] theorem State.hostReadsStatus_cw : s.hostReadsStatus.cw = s.cw := rfl
@[simp] theorem State.hostReadsStatus_rep : s.hostReadsStatus.rep = s.rep := rfl
@[simp] theorem State.hostReadsStatus_sub : s.hostReadsStatus.sub = s.sub := rfl
@[simp] theorem State.hostReadsStatus_emitV : s.hostReadsStatus.emitV = s.emitV := rfl
@[simp] theorem State.hostReadsStatus_trail : s.hostReadsStatus.trail = s.trail := rfl
@[simp] theorem State.hostReadsStatus_msg : s.hostReadsStatus.msg = s.msg := rfl
@[simp] theorem State.hostReadsStatus_trace : s.hostReadsStatus.trace = s.trace := rfl
@[simp] theorem State.hostReadsStatus_line : s.hostReadsStatus.line = s.line := rfl
@[simp] theorem State.hostReadsStatus_elapsed : s.hostReadsStatus.elapsed = s.elapsed := rfl
@[simp] theorem State.hostReadsStatus_draws : s.hostReadsStatus.draws = s.draws := rfl
@[simp] theorem State.hostReadsStatus_hostMoves : s.hostReadsStatus.hostMoves = s.hostMoves := rfl
@[simp] theorem State.hostReadsStatus_ports : s.hostReadsStatus.ports = s.ports := rfl
@[simp] theorem State.hostReadsStatus_reads : s.hostReadsStatus.reads = s.reads ++ [.status s.status] := rfl
@[simp] theorem State.hostReadsStatus_readFaults : s.hostReadsStatus.readFaults = s.readFaults := rfl
@[simp] theorem State.hostReadsStatus_params : s.hostReadsStatus.params = s.params := rfl
/-! Recording a read of an unwritten register (93_implementation_defined.md U8, U9). -/

@[simp] theorem State.noteUnwritten_cfgValid (r : UnwrittenRead) : (s.noteUnwritten r).cfgValid = s.cfgValid := rfl
@[simp] theorem State.noteUnwritten_cfgErr (r : UnwrittenRead) : (s.noteUnwritten r).cfgErr = s.cfgErr := rfl
@[simp] theorem State.noteUnwritten_fault (r : UnwrittenRead) : (s.noteUnwritten r).fault = s.fault := rfl
@[simp] theorem State.noteUnwritten_encResult (r : UnwrittenRead) : (s.noteUnwritten r).encResult = s.encResult := rfl
@[simp] theorem State.noteUnwritten_channel (r : UnwrittenRead) : (s.noteUnwritten r).channel = s.channel := rfl
@[simp] theorem State.noteUnwritten_bitDuration (r : UnwrittenRead) : (s.noteUnwritten r).bitDuration = s.bitDuration := rfl
@[simp] theorem State.noteUnwritten_phase (r : UnwrittenRead) : (s.noteUnwritten r).phase = s.phase := rfl
@[simp] theorem State.noteUnwritten_k (r : UnwrittenRead) : (s.noteUnwritten r).k = s.k := rfl
@[simp] theorem State.noteUnwritten_ci (r : UnwrittenRead) : (s.noteUnwritten r).ci = s.ci := rfl
@[simp] theorem State.noteUnwritten_cw (r : UnwrittenRead) : (s.noteUnwritten r).cw = s.cw := rfl
@[simp] theorem State.noteUnwritten_rep (r : UnwrittenRead) : (s.noteUnwritten r).rep = s.rep := rfl
@[simp] theorem State.noteUnwritten_sub (r : UnwrittenRead) : (s.noteUnwritten r).sub = s.sub := rfl
@[simp] theorem State.noteUnwritten_emitV (r : UnwrittenRead) : (s.noteUnwritten r).emitV = s.emitV := rfl
@[simp] theorem State.noteUnwritten_trail (r : UnwrittenRead) : (s.noteUnwritten r).trail = s.trail := rfl
@[simp] theorem State.noteUnwritten_msg (r : UnwrittenRead) : (s.noteUnwritten r).msg = s.msg := rfl
@[simp] theorem State.noteUnwritten_trace (r : UnwrittenRead) : (s.noteUnwritten r).trace = s.trace := rfl
@[simp] theorem State.noteUnwritten_line (r : UnwrittenRead) : (s.noteUnwritten r).line = s.line := rfl
@[simp] theorem State.noteUnwritten_elapsed (r : UnwrittenRead) : (s.noteUnwritten r).elapsed = s.elapsed := rfl
@[simp] theorem State.noteUnwritten_draws (r : UnwrittenRead) : (s.noteUnwritten r).draws = s.draws := rfl
@[simp] theorem State.noteUnwritten_hostMoves (r : UnwrittenRead) : (s.noteUnwritten r).hostMoves = s.hostMoves := rfl
@[simp] theorem State.noteUnwritten_ports (r : UnwrittenRead) : (s.noteUnwritten r).ports = s.ports := rfl
@[simp] theorem State.noteUnwritten_reads (r : UnwrittenRead) : (s.noteUnwritten r).reads = s.reads := rfl
@[simp] theorem State.noteUnwritten_readFaults (r : UnwrittenRead) : (s.noteUnwritten r).readFaults = s.readFaults ++ [r] := rfl
@[simp] theorem State.noteUnwritten_params (r : UnwrittenRead) : (s.noteUnwritten r).params = s.params := rfl

/-! The host's read of `ENC_RESULT` (10_state.md R28, R34): all but the host's record and the record of faults stays. -/

@[simp] theorem State.hostReadsEncResult_cfgValid : s.hostReadsEncResult.cfgValid = s.cfgValid := by
  unfold State.hostReadsEncResult; split <;> rfl
@[simp] theorem State.hostReadsEncResult_cfgErr : s.hostReadsEncResult.cfgErr = s.cfgErr := by
  unfold State.hostReadsEncResult; split <;> rfl
@[simp] theorem State.hostReadsEncResult_fault : s.hostReadsEncResult.fault = s.fault := by
  unfold State.hostReadsEncResult; split <;> rfl
@[simp] theorem State.hostReadsEncResult_encResult : s.hostReadsEncResult.encResult = s.encResult := by
  unfold State.hostReadsEncResult; split <;> rfl
@[simp] theorem State.hostReadsEncResult_channel : s.hostReadsEncResult.channel = s.channel := by
  unfold State.hostReadsEncResult; split <;> rfl
@[simp] theorem State.hostReadsEncResult_bitDuration : s.hostReadsEncResult.bitDuration = s.bitDuration := by
  unfold State.hostReadsEncResult; split <;> rfl
@[simp] theorem State.hostReadsEncResult_phase : s.hostReadsEncResult.phase = s.phase := by
  unfold State.hostReadsEncResult; split <;> rfl
@[simp] theorem State.hostReadsEncResult_k : s.hostReadsEncResult.k = s.k := by
  unfold State.hostReadsEncResult; split <;> rfl
@[simp] theorem State.hostReadsEncResult_ci : s.hostReadsEncResult.ci = s.ci := by
  unfold State.hostReadsEncResult; split <;> rfl
@[simp] theorem State.hostReadsEncResult_cw : s.hostReadsEncResult.cw = s.cw := by
  unfold State.hostReadsEncResult; split <;> rfl
@[simp] theorem State.hostReadsEncResult_rep : s.hostReadsEncResult.rep = s.rep := by
  unfold State.hostReadsEncResult; split <;> rfl
@[simp] theorem State.hostReadsEncResult_sub : s.hostReadsEncResult.sub = s.sub := by
  unfold State.hostReadsEncResult; split <;> rfl
@[simp] theorem State.hostReadsEncResult_emitV : s.hostReadsEncResult.emitV = s.emitV := by
  unfold State.hostReadsEncResult; split <;> rfl
@[simp] theorem State.hostReadsEncResult_trail : s.hostReadsEncResult.trail = s.trail := by
  unfold State.hostReadsEncResult; split <;> rfl
@[simp] theorem State.hostReadsEncResult_msg : s.hostReadsEncResult.msg = s.msg := by
  unfold State.hostReadsEncResult; split <;> rfl
@[simp] theorem State.hostReadsEncResult_trace : s.hostReadsEncResult.trace = s.trace := by
  unfold State.hostReadsEncResult; split <;> rfl
@[simp] theorem State.hostReadsEncResult_line : s.hostReadsEncResult.line = s.line := by
  unfold State.hostReadsEncResult; split <;> rfl
@[simp] theorem State.hostReadsEncResult_elapsed : s.hostReadsEncResult.elapsed = s.elapsed := by
  unfold State.hostReadsEncResult; split <;> rfl
@[simp] theorem State.hostReadsEncResult_draws : s.hostReadsEncResult.draws = s.draws := by
  unfold State.hostReadsEncResult; split <;> rfl
@[simp] theorem State.hostReadsEncResult_hostMoves : s.hostReadsEncResult.hostMoves = s.hostMoves := by
  unfold State.hostReadsEncResult; split <;> rfl
@[simp] theorem State.hostReadsEncResult_ports : s.hostReadsEncResult.ports = s.ports := by
  unfold State.hostReadsEncResult; split <;> rfl
@[simp] theorem State.hostReadsEncResult_params : s.hostReadsEncResult.params = s.params := by
  unfold State.hostReadsEncResult; split <;> rfl

end Sys2Proof.Machine
end

