-- ==== Sys2Proof/Laws/Ops.lean ====
section
/-! SUPPORT. One lemma per shared operation that says everything it can do where it answers a next state. -/

namespace Sys2Proof.Machine

theorem State.busy_eq_true (s : State) : s.busy = true ↔ s.phase ≠ .idle := by
  simp [State.busy]

theorem State.busy_eq_false (s : State) : s.busy = false ↔ s.phase = .idle := by
  simp [State.busy]

/-- What was needed was there and the rest ran on it. -/
theorem need_next {α : Type} {register : Option α} {f : Fault} {run : α → Host.Outcome State Fault Refusal} {t : State} :
    need register f run = .next t ↔ ∃ v, register = some v ∧ run v = .next t := by
  cases register <;> simp [need]

/-- The checks raised a fault, or all passed and the command ran (60_exceptions.md R144, R148). -/
theorem State.checked_next {s t : State} {selected : Option Op} {run : State → Host.Outcome State Fault Refusal} :
    s.checked selected run = .next t ↔
      (∃ f, s.check selected = some f ∧ t = s.raise f) ∨ (s.check selected = none ∧ run s = .next t) := by
  unfold State.checked
  cases h : s.check selected <;> simp [eq_comm]

/-- The host's read of `ENC_RESULT` gives its value, or records that there was none (10_state.md R34; U8). -/
theorem State.hostReadsEncResult_eq (s : State) :
    (∃ w, s.encResult = some w ∧ s.hostReadsEncResult = { s with reads := s.reads ++ [.encResult w] }) ∨
      (s.encResult = none ∧ s.hostReadsEncResult = s.noteUnwritten .encResult) := by
  unfold State.hostReadsEncResult
  cases s.encResult <;> simp

/-- Passing every check is to be idle, with a legal operation, configured as it needs, within the bound. -/
theorem State.check_none {s : State} {selected : Option Op} :
    s.check selected = none ↔
      s.busy = false ∧ ∃ op, selected = some op ∧ (op = .configure → s.cfgValid = false) ∧
        (Op.timed op = true → s.cfgValid = true) ∧
        (Op.takesMessage op = true → Params.tooLong s.params s.ports.msg = false) := by
  unfold State.check
  cases s.busy with
  | true => simp
  | false =>
    cases selected with
    | none => simp
    | some op => cases op <;> cases s.cfgValid <;> simp [Op.timed, Op.takesMessage]

/-- A message within the bound, as 60_exceptions.md R146 words it. -/
theorem Params.tooLong_eq_false {p : Params} {m : List Byte} :
    Params.tooLong p m = false ↔ ∀ bound, p.maxMsgLen = some bound → m.length ≤ bound := by
  unfold Params.tooLong
  cases p.maxMsgLen <;> simp

/-- The state an accepted command leaves (40_encoder.md R87; 41_transmitter.md R100, R103, R105, R109). -/
inductive Accepted (s : State) : Instr → State → Prop
  | configureRejected (h : nonPositive s.ports.rate = true) : Accepted s .configure { s with cfgErr := true }
  | configured (h : nonPositive s.ports.rate = false) (hc : Params.configurable s.params s.ports.channel = true) :
      Accepted s .configure
        (State.emit
          { s with
            channel := some s.ports.channel
            bitDuration := some (durationReg s.ports.rate)
            cfgValid := true
            cfgErr := false }
          (.configureAsOutput s.ports.channel))
  | encoded (byte : Byte) :
      Accepted s (.encode byte) { s with encResult := some ((hammingEncode byte).setWidth 16) }
  | symbol (v : Bool) : Accepted s (.emitSymbol v) { s with emitV := some v, sub := .level, phase := .single }
  | once : Accepted s .transmitOnce (s.startFrames 0 false)
  | repeatedNone (h : nonPositive s.ports.count = true) : Accepted s .transmitRepeated s
  | repeated (h : nonPositive s.ports.count = false) :
      Accepted s .transmitRepeated (s.startFrames (repeatsAfterFirst s.ports.count) s.params.gapAfterLast)

/-- Everything a command can do: the checks raised a fault, or it was accepted. -/
theorem exec_next {i : Instr} {s t : State} (h : exec i s = .next t) :
    (∃ f, s.check (some i.op) = some f ∧ t = s.raise f) ∨ (s.check (some i.op) = none ∧ Accepted s i t) := by
  cases i <;>
    simp only [exec, execConfigure, execEncode, execEmitSymbol, execTransmitOnce, execTransmitRepeated,
      State.checked_next] at h <;>
    refine h.imp id (And.imp_right fun h => ?_)
  case configure =>
    split at h
    case isTrue hr => cases h; exact .configureRejected hr
    case isFalse hr =>
      split at h
      case isTrue hc => cases h; exact .configured (by simpa using hr) hc
      case isFalse => cases h
  case encode => cases h; exact .encoded _
  case emitSymbol => cases h; exact .symbol _
  case transmitOnce => cases h; exact .once
  case transmitRepeated =>
    split at h
    case isTrue hc => cases h; exact .repeatedNone hc
    case isFalse hc => cases h; exact .repeated (by simpa using hc)

/-- The end of a marker or codeword where byte `CI` is there (41_transmitter.md R115, R116). -/
theorem State.nextCodeword_some {s : State} {b : Byte} (h : s.msgRead s.ci = some b) :
    s.nextCodeword = { s with cw := some (hammingEncode b), phase := .data } := by
  simp [State.nextCodeword, h]

/-- The end of a marker or codeword where no byte is left (41_transmitter.md R115, R116). -/
theorem State.nextCodeword_none {s : State} (h : s.msgRead s.ci = none) :
    s.nextCodeword = { s with phase := .post } := by
  simp [State.nextCodeword, h]

/-- Where a frame's end goes (41_transmitter.md R117). -/
theorem State.endFrame_phase (s : State) :
    s.endFrame.phase = if 0 < s.rep then .gap else if s.trail then .tailGap else .idle := by
  unfold State.endFrame
  repeat' split
  all_goals rfl

/-- What the sequencer's read of a register leaves: the state itself where the register was written, else the read recorded and a
draw used (93_implementation_defined.md U9). -/
inductive ReadFrom (s : State) : State → Prop
  | written : ReadFrom s s
  | unwritten (which : UnwrittenRead) : ReadFrom s { s.noteUnwritten which with draws := s.draws + 1 }

/-- A read leaves all but the record of faults and the draw counter. -/
theorem ReadFrom.frame {s u : State} (h : ReadFrom s u) :
    u = { s with readFaults := u.readFaults, draws := u.draws } := by
  cases h <;> rfl

/-- A register's read always answers: its value from the state itself, or a free value with the read recorded. -/
theorem State.readRegister_eq {α : Type} (s : State) (register : Option α) (which : UnwrittenRead) (free : Nat → α) :
    ∃ u v, ReadFrom s u ∧ (∀ w, register = some w → u = s ∧ v = w) ∧
      ∀ run, s.readRegister register which free run = run u v := by
  cases register with
  | none => exact ⟨_, _, .unwritten which, nofun, fun _ => rfl⟩
  | some v => exact ⟨s, v, .written, fun w h => ⟨rfl, Option.some.inj h⟩, fun _ => rfl⟩

/-- The symbol's level always answers (41_transmitter.md R114): from the state itself where the phase's register is written. -/
theorem State.symbolLevel_eq (s : State) :
    ∃ u v, ReadFrom s u ∧ (∀ run, s.symbolLevel run = run u v) ∧
      ((s.phase = .single → s.emitV.isSome = true) → (s.phase = .data → s.cw.isSome = true) → u = s) := by
  unfold State.symbolLevel
  cases hp : s.phase
  case single =>
    obtain ⟨u, v, hu, hw, h⟩ := s.readRegister_eq s.emitV .emitV Config.unwrittenLevel
    refine ⟨u, v, hu, h, fun hs _ => ?_⟩
    obtain ⟨w, hv⟩ := Option.isSome_iff_exists.mp (hs rfl)
    exact (hw w hv).1
  case data =>
    obtain ⟨u, v, hu, hw, h⟩ := s.readRegister_eq s.cw .cw Config.unwrittenCodeword
    refine ⟨u, pos v s.k, hu, fun run => h fun u w => run u (pos w s.k), fun _ hs => ?_⟩
    obtain ⟨w, hv⟩ := Option.isSome_iff_exists.mp (hs rfl)
    exact (hw w hv).1
  all_goals exact ⟨s, _, .written, fun _ => rfl, fun _ _ => rfl⟩

/-- The sleep's length always answers (41_transmitter.md R115 to R120): from the state itself where `BIT_DURATION` is written. -/
theorem State.sleepLength_eq (s : State) :
    ∃ u ms, ReadFrom s u ∧ (∀ run, s.sleepLength run = run u ms) ∧ (s.bitDuration.isSome = true → u = s) := by
  unfold State.sleepLength
  obtain ⟨u, d, hu, hw, h⟩ := s.readRegister_eq s.bitDuration .bitDuration Config.unwrittenDuration
  cases s.phase
  case gap => exact ⟨s, _, .written, fun _ => rfl, fun _ => rfl⟩
  case tailGap => exact ⟨s, _, .written, fun _ => rfl, fun _ => rfl⟩
  all_goals
    refine ⟨u, d.toNat, hu, fun run => h fun u d => run u d.toNat, fun hs => ?_⟩
    obtain ⟨w, hv⟩ := Option.isSome_iff_exists.mp hs
    exact (hw w hv).1

/-- The things the block's step can be: waiting, a level step, or a sleep step (41_transmitter.md R113). `u` is the state after the
step's read. -/
inductive BlockStepped (s : State) : State → Prop
  | waits (h : s.phase = .idle) : BlockStepped s s
  | level (hp : s.phase ≠ .idle) (hs : s.sleepsNext = false) (u : State) (ch : Channel) (v : Bool) (hc : s.channel = some ch)
      (hu : ReadFrom s u) (hv : ∀ run, s.symbolLevel run = run u v) :
      BlockStepped s { u.emit (.setLevel ch v) with sub := .wait }
  | sleep (hp : s.phase ≠ .idle) (hs : s.sleepsNext = true) (u : State) (ms : Nat)
      (hu : ReadFrom s u) (hl : ∀ run, s.sleepLength run = run u ms) :
      BlockStepped s (u.emit (.sleep ms)).afterSleep

/-- Everything the block's step can do. -/
theorem State.blockStep_next {s t : State} (h : s.blockStep = .next t) : BlockStepped s t := by
  unfold State.blockStep at h
  split at h
  case isTrue hp => cases h; exact .waits hp
  case isFalse hp =>
    split at h
    case isTrue hs =>
      obtain ⟨u, ms, hu, hl, -⟩ := s.sleepLength_eq
      rw [State.sleepStep, hl] at h
      cases h
      exact .sleep hp hs u ms hu hl
    case isFalse hs =>
      obtain ⟨ch, hc, h⟩ := need_next.mp h
      obtain ⟨u, v, hu, hv, -⟩ := s.symbolLevel_eq
      rw [hv] at h
      cases h
      exact .level hp (by simpa using hs) u ch v hc hu hv

/-- What a reset inside a sleep leaves: the block reset, with the sleep's event where a sleep was next (70_reset_and_hazards.md
R166). -/
theorem State.resetInSleep_next {s t : State} (h : s.resetInSleep = .next t) :
    (s.sleepsNext = false ∧ t = s.blockReset) ∨
      (s.sleepsNext = true ∧ ∃ u ms, ReadFrom s u ∧ t = (u.emitCutSleep ms).blockReset) := by
  unfold State.resetInSleep at h
  split at h
  case isTrue hs =>
    obtain ⟨u, ms, hu, hl, -⟩ := s.sleepLength_eq
    rw [hl] at h
    cases h
    exact .inr ⟨hs, u, ms, hu, rfl⟩
  case isFalse hs => cases h; exact .inl ⟨by simpa using hs, rfl⟩

/-- Everything one step can do: the block's step, or one of the host's moves (20_memory.md R57; 60_exceptions.md R161). `u` is
the state with the move taken off the list. -/
inductive Stepped (s : State) : State → Prop
  | block {t : State} (u : State) (moves : List HostMove) (hu : u = { s with hostMoves := moves })
      (hm : s.hostMoves = moves ∨ s.hostMoves = .yield :: moves ∨ (s.hostMoves = moves ∧ ∃ r, moves = .awaitIdle :: r))
      (h : BlockStepped u t) : Stepped s t
  | legalWord {t : State} (c : Command) (rest : List HostMove) (i : Instr) (hm : s.hostMoves = .command c :: rest)
      (hd : decode c.word = some i) (h : exec i { s with hostMoves := rest, ports := c.ports } = .next t) : Stepped s t
  | illegalWord (c : Command) (rest : List HostMove) (f : CmdFault) (hm : s.hostMoves = .command c :: rest)
      (hd : decode c.word = none)
      (hf : State.check { s with hostMoves := rest, ports := c.ports } none = some f) :
      Stepped s (State.raise { s with hostMoves := rest, ports := c.ports } f)
  | reset (rest : List HostMove) (hm : s.hostMoves = .reset :: rest) :
      Stepped s (State.blockReset { s with hostMoves := rest })
  | resetInSleep {t : State} (rest : List HostMove) (hm : s.hostMoves = .resetInSleep :: rest)
      (h : State.resetInSleep { s with hostMoves := rest } = .next t) : Stepped s t
  | readStatus (rest : List HostMove) (hm : s.hostMoves = .readStatus :: rest) :
      Stepped s (State.hostReadsStatus { s with hostMoves := rest })
  | readEncResult (rest : List HostMove) (hm : s.hostMoves = .readEncResult :: rest) :
      Stepped s (State.hostReadsEncResult { s with hostMoves := rest })
  | awaited (rest : List HostMove) (hm : s.hostMoves = .awaitIdle :: rest) (hb : s.busy = false) :
      Stepped s { s with hostMoves := rest }

/-- Everything one step can do. -/
theorem step_next {s t : State} (h : step s = .next t) : Stepped s t := by
  unfold step State.advance at h
  split at h
  case h_1 hm => exact .block s s.hostMoves rfl (.inl rfl) (State.blockStep_next h)
  case h_2 m rest hm =>
    cases m with
    | command c =>
      simp only [State.hostMove, State.issue] at h
      split at h
      case h_1 i hd => exact .legalWord c rest i hm hd h
      case h_2 hd =>
        rcases State.checked_next.mp h with ⟨f, hf, rfl⟩ | ⟨hf, -⟩
        · exact .illegalWord c rest f hm hd hf
        · simp [State.check_none] at hf
    | reset => cases h; exact .reset rest hm
    | resetInSleep => exact .resetInSleep rest hm h
    | readStatus => cases h; exact .readStatus rest hm
    | readEncResult => cases h; exact .readEncResult rest hm
    | yield => exact .block _ rest rfl (.inr (.inl hm)) (State.blockStep_next h)
    | awaitIdle =>
      simp only [State.hostMove] at h
      split at h
      case isTrue =>
        exact .block _ (.awaitIdle :: rest) rfl (.inr (.inr ⟨hm, rest, rfl⟩)) (State.blockStep_next h)
      case isFalse hb => cases h; exact .awaited rest hm (by simpa [State.busy] using hb)

/-- Everything a step of a system can do (70_reset_and_hazards.md R175). -/
theorem System.stepAt_next {sys sys' : System} {n : Fin sys.instances.length} (h : sys.stepAt n = .next sys') :
    ∃ t, step (sys.stepping n) = .next t ∧ sys' = sys.replaced n t ∧ sys'.distinct = true := by
  unfold System.stepAt at h
  split at h
  case h_1 t ht =>
    split at h
    case isTrue hd => cases h; exact ⟨t, ht, rfl, hd⟩
    case isFalse => cases h
  case h_2 => cases h
  case h_3 => cases h

/-- A 32-bit operand is read exactly where the integer is in range (30_encoding.md R77). -/
theorem operand32_eq_some {n : Int} {v : Signed32} : operand32 n = some v ↔ inSigned32 n = true ∧ v = BitVec.ofInt 32 n := by
  unfold operand32
  cases h : inSigned32 n
  · simp
  · exact ⟨fun e => ⟨rfl, (Option.some.inj e).symm⟩, fun e => congrArg some e.2.symm⟩

end Sys2Proof.Machine
end

