-- ==== Sys2Proof/Laws/PerInstr.lean ====
section
/-! SUPPORT. Statements about every command as syntax, one lemma per constructor. -/

namespace Sys2Proof.Laws.Encoding

/-- The word of a command is legal (30_encoding.md R74), and selects that command's operation and no other (R73, R75). -/
def Statement (i : Instr) : Prop :=
  wordLegal (Sys2Proof.encode i) = true ∧ ∀ o : Op, o.selectedBy (Sys2Proof.encode i) = true ↔ o = i.op

theorem configure : Statement .configure := ⟨by decide, fun o => by cases o <;> decide⟩

theorem encode (byte : Byte) : Statement (.encode byte) := by
  constructor
  · revert byte; decide
  · intro o; cases o <;> revert byte <;> decide

theorem emitSymbol (v : Bool) : Statement (.emitSymbol v) := by
  constructor
  · revert v; decide
  · intro o; cases o <;> revert v <;> decide

theorem transmitOnce : Statement .transmitOnce := ⟨by decide, fun o => by cases o <;> decide⟩

theorem transmitRepeated : Statement .transmitRepeated := ⟨by decide, fun o => by cases o <;> decide⟩

end Sys2Proof.Laws.Encoding
end

