-- ==== Sys2Proof/Tests/Slice0.lean ====
section
/-! SUPPORT. Tests: expected values are the spec's own (95_test_vectors.md and the rules named); witnesses that the hypotheses of
the statements can be met. -/

namespace Sys2Proof.Machine.Tests

/-! What WellFormed refuses: an ill-formed term for each check (30_encoding.md R74, R77, R79). -/

theorem test_illegal_words_refused :
    ([0x0000, 0x0FFF, 0x6000, 0xF000, 0x1001, 0x1800, 0x2100, 0x2F00, 0x3002, 0x3FFE, 0x4800, 0x5001] : List CmdWord).all
      (fun w => !wordLegal w) = true := by decide

theorem test_legal_words_accepted :
    ([0x1000, 0x2000, 0x20FF, 0x3000, 0x3001, 0x4000, 0x5000] : List CmdWord).all wordLegal = true := by decide

theorem test_ill_formed_lines_refused :
    AsmLine.wellFormed (.configure ⟨0⟩ (some 2147483648)) = false
    ∧ AsmLine.wellFormed (.configure ⟨0⟩ (some (-2147483649))) = false
    ∧ AsmLine.wellFormed (.encode 256) = false
    ∧ AsmLine.wellFormed (.emitSymbol 2) = false
    ∧ AsmLine.wellFormed (.transmitOnce (.bytes [0, 256])) = false
    ∧ AsmLine.wellFormed (.transmitRepeated (.bytes []) 2147483648) = false := by decide

theorem test_ill_formed_literals_refused :
    literalWellFormed [backslashChar] = false ∧ literalWellFormed [backslashChar, 'n'] = false
    ∧ literalWellFormed [backslashChar, 'x', '4'] = false ∧ literalWellFormed [backslashChar, 'x', 'g', '0'] = false
    ∧ literalWellFormed [quoteChar] = false ∧ literalWellFormed [Char.ofNat 0x7F] = false
    ∧ literalWellFormed [Char.ofNat 0x1F] = false := by decide

/-! Decoding: words written out bit by bit from 30_encoding.md R72 and R73. -/

theorem test_decode_configure : decode 0b0001000000000000 = some .configure := by decide
theorem test_decode_encode : decode 0b0010000001000001 = some (.encode 0x41) := by decide
theorem test_decode_emitSymbol :
    decode 0b0011000000000001 = some (.emitSymbol true) ∧ decode 0b0011000000000000 = some (.emitSymbol false) := by decide
theorem test_decode_transmitOnce : decode 0b0100000000000000 = some .transmitOnce := by decide
theorem test_decode_transmitRepeated : decode 0b0101000000000000 = some .transmitRepeated := by decide

/-- 95_test_vectors.md section 3.6, its illegal rows. -/
theorem test_decode_illegal :
    ([0x0000, 0x0FFF, 0x1001, 0x1800, 0x2100, 0x2F00, 0x3002, 0x3FFE, 0x4800, 0x5001, 0x6000, 0x7000, 0x8000, 0xF000,
      0xFFFF] : List CmdWord).all (fun w => (decode w).isNone) = true := by decide

theorem test_encode_words :
    encode .configure = 0x1000 ∧ encode (.encode 0x48) = 0x2048 ∧ encode (.emitSymbol true) = 0x3001
    ∧ encode .transmitOnce = 0x4000 ∧ encode .transmitRepeated = 0x5000 := by decide

theorem test_table_words :
    decodeTableWord 16 0x1000 = some .configure ∧ decodeTableWord 16 0x20FF = some (.encode 0xFF)
    ∧ decodeTableWord 16 0x5000 = some .transmitRepeated ∧ decodeTableWord 17 0x5000 = none := by decide

/-! The codeword (95_test_vectors.md sections 2.1, 2.2, 2.3). -/

theorem test_codewords :
    hammingEncode 0x00 = 0x000 ∧ hammingEncode 0x41 = 0x891 ∧ hammingEncode 0x48 = 0x198 ∧ hammingEncode 0x69 = 0x5C9
    ∧ hammingEncode 0x80 = 0xE00 ∧ hammingEncode 0xB6 = 0xE66 ∧ hammingEncode 0xFE = 0xFFE ∧ hammingEncode 0xFF = 0xEEF := by
  decide

theorem test_syndromes :
    syndrome 0x891 = 0 ∧ syndrome 0x091 = 1 ∧ syndrome 0x8B1 = 7 ∧ syndrome 0x890 = 12 ∧ syndrome 0xFFF = 12
    ∧ syndrome 0x491 = 3 ∧ flipPos 0x891 3 = 0x991 ∧ extractData 0x891 = 0x41 ∧ weight 0x414 = 3 := by decide

/-- 41_transmitter.md R105, the rule's example. -/
theorem test_frame_symbols :
    frameSymbols [0x41] =
      [false, true, false, true, false, true, false, true,
       true, false, false, false, true, false, false, true, false, false, false, true,
       false, true, false, true, false, true, false, true] := by decide

/-! Small states. -/

def chA : Channel := ⟨3⟩

/-- Idle, configured with duration 100. -/
def ready : State :=
  { State.reset with
    cfgValid := true, channel := some chA, bitDuration := some 100
    trace := [.configureAsOutput chA], line := .level true }

/-- Unconfigured, with ports for a CONFIGURE. -/
def fresh (rate : Int) : State := { State.reset with ports := { Ports.idle with channel := chA, rate := BitVec.ofInt 32 rate } }

/-- Busy in a phase, at a position. -/
def busyAt (p : Phase) (sub : Sub) (k ci : Nat) (m : List Byte) : State :=
  { ready with phase := p, sub := sub, k := k, ci := ci, msg := m, cw := some 0x891, emitV := some true }

/-- The host's next moves. -/
def State.hosting (s : State) (moves : List HostMove) : State := { s with hostMoves := moves }

/-- A command with ports. -/
def cmd (w : CmdWord) (m : List Byte := []) (count : Int := 0) (rate : Int := 0) : HostMove :=
  .command { word := w, ports := { channel := chA, rate := BitVec.ofInt 32 rate, msg := m, count := BitVec.ofInt 32 count } }

/-- The state answered, or power-on where there is none. -/
def answered (o : Host.Outcome State Fault Refusal) : State :=
  match o with
  | .next s => s
  | _ => State.reset

def isFault (o : Host.Outcome State Fault Refusal) (f : Fault) : Bool :=
  match o with
  | .fault g => decide (f = g)
  | _ => false

def isRefused (o : Host.Outcome State Fault Refusal) (r : Refusal) : Bool :=
  match o with
  | .refused q => decide (r = q)
  | _ => false

/-! The commands (95_test_vectors.md sections 2.4, 3.1 to 3.5). -/

theorem test_encode_result : (answered (exec (.encode 0x41) State.reset)).encResult = some 0x0891 := by decide
theorem test_encode_while_busy :
    (answered (exec (.encode 0x41) (busyAt .pre .level 0 0 []))).fault = 2
    ∧ (answered (exec (.encode 0x41) (busyAt .pre .level 0 0 []))).encResult = none := by decide

theorem test_configure_rate_3 :
    (answered (exec .configure (fresh 3))).bitDuration = some 333
    ∧ (answered (exec .configure (fresh 3))).status = 0x01
    ∧ (answered (exec .configure (fresh 3))).trace = [.configureAsOutput chA] := by decide
theorem test_configure_rate_negative :
    (answered (exec .configure (fresh (-2147483648)))).status = 0x04
    ∧ (answered (exec .configure (fresh (-2147483648)))).trace = [] := by decide

theorem test_emitSymbol_status : (answered (exec (.emitSymbol true) ready)).status = 0x03 := by decide
theorem test_emitSymbol_unconfigured : (answered (exec (.emitSymbol true) State.reset)).status = 0x30 := by decide

theorem test_transmitOnce_status :
    (answered (step (State.hosting ready [cmd 0x4000 [1, 2]]))).status = 0x03 := by decide
theorem test_transmitOnce_too_long :
    (answered (step (State.hosting { ready with params := { Params.spec with maxMsgLen := some 2 } }
      [cmd 0x4000 [1, 2, 3]]))).status = 0x51 := by decide

theorem test_transmitRepeated_largest_count :
    (answered (step (State.hosting ready [cmd 0x5000 [0x41] 2147483647]))).rep = 2147483646 := by decide
theorem test_transmitRepeated_no_op :
    (answered (step (State.hosting ready [cmd 0x5000 [0x41] (-1)]))).status = 0x01
    ∧ (answered (step (State.hosting ready [cmd 0x5000 [0x41] (-1)]))).msg = [] := by decide

/-- 95_test_vectors.md section 3.5: a reserved word while busy, and a second fault. -/
theorem test_busy_reserved_word :
    (answered (step (State.hosting (busyAt .pre .level 0 0 []) [cmd 0x7000]))).status = 0x23 := by decide
theorem test_first_fault_kept :
    (answered (step (State.hosting { State.reset with fault := 3 } [cmd 0x7000]))).status = 0x30 := by decide

/-! The sequencer and the reads. -/

/-- 41_transmitter.md R114: position 4 of 0x891 is 1. -/
theorem test_data_level :
    (answered (step (busyAt .data .level 4 0 [0x41]))).trace = [.configureAsOutput chA, .setLevel chA true] := by decide
/-- 41_transmitter.md R115, R117 at their last symbols. -/
theorem test_pre_ends :
    (answered (step (busyAt .pre .wait 7 0 [0x48]))).cw = some 0x198
    ∧ (answered (step (busyAt .pre .wait 7 0 [0x48]))).phase = .data
    ∧ (answered (step (busyAt .pre .wait 7 0 []))).phase = .post := by decide
theorem test_post_ends :
    (answered (step (busyAt .post .wait 7 0 []))).status = 0x01
    ∧ (answered (step { busyAt .post .wait 7 0 [] with rep := 1 })).phase = .gap
    ∧ (answered (step { busyAt .post .wait 7 0 [] with trail := true })).phase = .tailGap := by decide
theorem test_gap :
    (answered (step { busyAt .gap .level 0 1 [0x41] with rep := 1 })).elapsed = 300
    ∧ (answered (step { busyAt .gap .level 0 1 [0x41] with rep := 1 })).ci = 0 := by decide

/-- 10_state.md R34: `ENC_RESULT` unwritten. -/
theorem test_read_unwritten :
    (answered (step (State.hosting State.reset [.readEncResult]))).readFaults = [.encResult]
    ∧ (answered (step (State.hosting State.reset [.readEncResult]))).reads = [] := by decide
/-- 70_reset_and_hazards.md R169. -/
theorem test_invalid_channel :
    isRefused (exec .configure { fresh 10 with params := { Params.spec with outputs := some [] } })
      .channelNotConfigurable = true := by decide
/-- 95_test_vectors.md P5: reset in the middle of a sleep. -/
theorem test_reset_in_sleep :
    (answered (step (State.hosting (busyAt .pre .wait 5 0 [0xFF]) [.resetInSleep]))).status = 0x00
    ∧ (answered (step (State.hosting (busyAt .pre .wait 5 0 [0xFF]) [.resetInSleep]))).trace
        = [.configureAsOutput chA, .sleep 100] := by decide

/-- An opcode-table word runs as the first command after reset. -/
theorem test_first_command :
    (answered (step (State.reset.withFetchWord 16 0x20FF))).encResult = some 0x0EEF
    ∧ (answered (step (State.reset.withFetchWord 16 0x1000))).cfgErr = true
    ∧ (answered (step (State.reset.withFetchWord 16 0x3001))).status = 0x30 := by decide

/-! The assembler (30_encoding.md R77 to R79, and lines of 95_test_vectors.md section 4). -/

theorem test_parse_configure :
    parseLine ['C', 'O', 'N', 'F', 'I', 'G', 'U', 'R', 'E', ' ', 'c', 'h', '1', ',', ' ', '5', '0', '0', ' ', ';', ' ', 'x']
      = some (some (.configure ⟨1⟩ (some 500)))
    ∧ assemble (.configure ⟨1⟩ none) = assemble (.configure ⟨1⟩ (some 10)) := by decide
theorem test_parse_message :
    parseLine ['e', 'n', 'c', 'o', 'd', 'e', ' ', '0', 'x', '4', '8'] = some (some (.encode 0x48))
    ∧ messageBytes (.literal ['H', 'i']) = some [0x48, 0x69]
    ∧ messageBytes (.literal [backslashChar, 'x', '0', 'F', backslashChar, quoteChar]) = some [0x0F, 0x22] := by decide

/-! Witnesses: the hypotheses of each statement of Certificates/Slice0/Obligations.lean, met together. -/

theorem ready_inv : ready.Inv := by
  constructor <;> simp [ready, State.reset, State.busy, State.PositionOk, State.isOutput, Params.configurable, inChannelSet,
      Params.spec]

/-- A busy state of the invariant: a frame just started. -/
def started : State := ready.startFrames 0 false

theorem started_inv : started.Inv := by
  constructor <;>
    simp [started, State.startFrames, ready, State.reset, State.busy, State.PositionOk, State.isOutput, Params.configurable,
      inChannelSet, Params.spec]

/-- A state of the invariant in the trailing gap. -/
def trailing : State :=
  { ready with phase := .tailGap, trail := true, params := { Params.spec with gapAfterLast := true } }

theorem trailing_inv : trailing.Inv := by
  constructor <;>
    simp [trailing, ready, State.reset, State.busy, State.PositionOk, State.isOutput, Params.configurable, inChannelSet,
      Params.spec]

theorem test_witness_EncodeCompletes :
    ready.busy = false ∧ started.busy = true ∧ opcField 0x20FF = 0x2 ∧ (immField 0x2100).extractLsb' 8 4 ≠ 0#4
    ∧ opcField 0x2100 = 0x2 ∧ (State.hosting ready [cmd 0x2100]).busy = false := by decide
theorem test_witness_EncodeFrame :
    (∃ t, exec (.encode 0xFF) ready = .next t) ∧ ∃ t, exec (.encode 0xFF) started = .next t := ⟨⟨_, rfl⟩, _, rfl⟩
theorem test_witness_ConfigureCompletes :
    (fresh 1).busy = false ∧ (fresh 1).cfgValid = false ∧ 0 < (fresh 1).ports.rate.toInt
    ∧ Params.configurable (fresh 1).params (fresh 1).ports.channel = true
    ∧ 0 < (fresh 2147483647).ports.rate.toInt := by decide
theorem test_witness_ConfigureRejectsNonPositiveRate :
    (fresh 0).busy = false ∧ (fresh 0).cfgValid = false ∧ (fresh 0).ports.rate.toInt ≤ 0
    ∧ (fresh (-2147483648)).ports.rate.toInt ≤ 0 := by decide
theorem test_witness_ConfigureRefusesInvalidChannel :
    (fresh 1).busy = false ∧ (fresh 1).cfgValid = false ∧ 0 < (fresh 1).ports.rate.toInt
    ∧ Params.configurable { Params.spec with outputs := some [] } (fresh 1).ports.channel = false := by decide
theorem test_witness_HighRateGivesZeroSleeps :
    (fresh 1001).busy = false ∧ (fresh 1001).cfgValid = false ∧ 1000 < (fresh 1001).ports.rate.toInt
    ∧ Params.configurable (fresh 1001).params (fresh 1001).ports.channel = true
    ∧ { busyAt .single .wait 0 0 [] with bitDuration := some 0 }.bitDuration = some 0#10
    ∧ (busyAt .single .wait 0 0 []).sub = .wait ∧ (busyAt .single .wait 0 0 []).phase = .single := by decide
theorem test_witness_ConfigureFrame :
    (∃ t, exec .configure (fresh 0) = .next t ∧ t.trace = (fresh 0).trace)
    ∧ ∃ t, exec .configure (fresh 10) = .next t ∧ t.trace ≠ (fresh 10).trace := ⟨⟨_, rfl, by decide⟩, _, rfl, by decide⟩
theorem test_witness_timed_completions :
    ready.busy = false ∧ ready.cfgValid = true
    ∧ (∀ bound, some 2 = some bound → ([1, 2] : List Byte).length ≤ bound)
    ∧ 0 < (BitVec.ofInt 32 2147483647).toInt ∧ (BitVec.ofInt 32 0).toInt ≤ 0 := by simp [ready, State.reset, State.busy]
theorem test_witness_TimedCommandFrame :
    (∃ t, exec (.emitSymbol true) ready = .next t) ∧ (∃ t, exec .transmitOnce ready = .next t)
    ∧ ∃ t, exec .transmitRepeated { ready with ports := { Ports.idle with count := 2 } } = .next t :=
  ⟨⟨_, rfl⟩, ⟨_, rfl⟩, _, rfl⟩
theorem test_witness_CommandsEmitNoSymbols : ∃ t, exec .configure (fresh 10) = .next t := ⟨_, rfl⟩

/-- The six clauses of CommandChecksInOrder: busy; illegal; a second CONFIGURE; an unconfigured timed command; a message one byte
over its bound; and the command the host may issue, its message at the bound. -/
theorem test_witness_CommandChecksInOrder :
    started.busy = true
    ∧ (ready.busy = false ∧ wordLegal 0x4001 = false)
    ∧ (wordLegal 0x1000 = true ∧ opcField 0x1000 = 0x1 ∧ ready.cfgValid = true)
    ∧ (wordLegal 0x3001 = true ∧ opcField 0x3001 = 0x3 ∧ State.reset.cfgValid = false ∧ State.reset.busy = false)
    ∧ (opcField 0x4000 = 0x4 ∧ opcField 0x5000 = 0x5 ∧ 2 < ([1, 2, 3] : List Byte).length)
    ∧ CommandOk { ready with params := { Params.spec with maxMsgLen := some 2 } }
        { word := 0x4000, ports := { Ports.idle with msg := [1, 2] } } := by
  refine ⟨by decide, by decide, by decide, by decide, by decide, ⟨by decide, by decide, by decide, by decide, ?_⟩⟩
  intro _ bound hb
  cases hb
  decide

theorem noReset_ready : ready.noResetNext := by intro rest; simp [ready, State.reset]
theorem test_witness_FirstFaultKept :
    (∃ t, step { ready with fault := 3 } = .next t) ∧ (3 : BitVec 4) ≠ 0
    ∧ State.noResetNext { ready with fault := 3 } :=
  ⟨⟨_, rfl⟩, by decide, noReset_ready⟩
theorem test_witness_LevelStepEmitsSymbol :
    ready.channel = some chA ∧ (busyAt .single .level 0 0 []).sub = .level ∧ (busyAt .single .level 0 0 []).emitV = some true
    ∧ (busyAt .pre .level 7 0 []).phase = .pre ∧ (busyAt .post .level 7 0 []).phase = .post
    ∧ (busyAt .data .level 11 0 [0x41]).cw = some 0x891 ∧ (busyAt .data .level 11 0 [0x41]).k ≤ 11 := by decide
theorem test_witness_PreambleWaitStep :
    started.Inv ∧ started.phase = .pre ∧ (busyAt .pre .wait 6 0 []).bitDuration = some 100
    ∧ (busyAt .pre .wait 6 0 []).k < 7 ∧ 7 ≤ (busyAt .pre .wait 7 0 [0x41]).k
    ∧ (busyAt .pre .wait 7 0 [0x41]).ci < (busyAt .pre .wait 7 0 [0x41]).msg.length
    ∧ (busyAt .pre .wait 7 0 []).msg.length ≤ (busyAt .pre .wait 7 0 []).ci := ⟨started_inv, by decide⟩
theorem test_witness_CodewordWaitStep :
    (busyAt .data .wait 10 0 [1, 2]).k < 11 ∧ 11 ≤ (busyAt .data .wait 11 0 [1, 2]).k
    ∧ (busyAt .data .wait 11 0 [1, 2]).ci + 1 < (busyAt .data .wait 11 0 [1, 2]).msg.length
    ∧ (busyAt .data .wait 11 1 [1, 2]).msg.length ≤ (busyAt .data .wait 11 1 [1, 2]).ci + 1
    ∧ (busyAt .data .wait 11 1 [1, 2]).phase = .data ∧ (busyAt .data .wait 11 1 [1, 2]).sub = .wait := by decide
theorem test_witness_PostambleWaitStep :
    (busyAt .post .wait 6 0 []).k < 7 ∧ 7 ≤ (busyAt .post .wait 7 0 []).k ∧ (busyAt .post .wait 7 0 []).phase = .post
    ∧ (busyAt .post .wait 7 0 []).sub = .wait ∧ (busyAt .post .wait 7 0 []).bitDuration = some 100 := by decide
theorem test_witness_SingleWaitAndGapSteps :
    (busyAt .single .wait 0 0 []).phase = .single ∧ (busyAt .single .wait 0 0 []).sub = .wait
    ∧ (busyAt .gap .level 0 0 []).phase = .gap ∧ trailing.phase = .tailGap ∧ trailing.Inv :=
  ⟨rfl, rfl, rfl, rfl, trailing_inv⟩
theorem test_witness_NothingFaultsUnderWay :
    started.Inv ∧ started.busy = true ∧ ready.busy = false
    ∧ ∃ t, step (State.hosting ready [cmd 0x7000]) = .next t ∧ t.fault ≠ ready.fault :=
  ⟨started_inv, by decide, by decide, _, rfl, by decide⟩
theorem test_witness_SequencerFrame :
    (∃ t, State.blockStep started = .next t) ∧ ∃ t, State.blockStep (busyAt .data .wait 11 0 [0x41]) = .next t :=
  ⟨⟨_, rfl⟩, _, rfl⟩
theorem test_witness_UnwrittenReadsFault :
    ({ busyAt .pre .level 0 0 [] with channel := none }.busy = true
      ∧ { busyAt .pre .level 0 0 [] with channel := none }.sleepsNext = false)
    ∧ { busyAt .single .level 0 0 [] with emitV := none }.channel = some chA
    ∧ { busyAt .data .level 0 0 [] with cw := none }.channel = some chA
    ∧ { busyAt .post .wait 0 0 [] with bitDuration := none }.sub = .wait
    ∧ isFault (step { busyAt .pre .level 0 0 [] with channel := none }) .channelNone = true
    ∧ started.Inv ∧ started.busy = true := by
  refine ⟨by decide, by decide, by decide, by decide, by decide, started_inv, by decide⟩

/-- The hypotheses of EmitSymbolTrace, TransmitOnceTrace and TransmitRepeatedTrace, the largest count among them. -/
theorem test_witness_traces :
    ready.hostMoves = [] ∧ ready.busy = false ∧ ready.cfgValid = true ∧ ready.channel = some chA
    ∧ ready.bitDuration = some 100 ∧ (∀ bound, ready.params.maxMsgLen = some bound → ready.ports.msg.length ≤ bound)
    ∧ (BitVec.ofInt 32 1).toInt = ((0 : Nat) : Int) + 1
    ∧ (BitVec.ofInt 32 2147483647).toInt = ((2147483646 : Nat) : Int) + 1 :=
  ⟨rfl, rfl, rfl, rfl, rfl, nofun, by decide, by decide⟩
theorem test_witness_OperationsRunToCompletion : started.Inv ∧ started.hostMoves = [] ∧ started.busy = true :=
  ⟨started_inv, rfl, rfl⟩
theorem test_witness_HostCannotDisturbOperation :
    (State.hosting started [cmd 0x4000]).busy = true ∧ (∃ t, step (State.hosting started [cmd 0x4000]) = .next t)
    ∧ ∃ t, step (State.hosting started [.readStatus]) = .next t := ⟨rfl, ⟨_, rfl⟩, _, rfl⟩
theorem test_witness_InvariantKeptByEveryStep : started.Inv ∧ ∃ t, step started = .next t := ⟨started_inv, _, rfl⟩
theorem test_witness_SinkAgreesWithTrace :
    State.SinkInv { started with trace := [.setLevel chA true, .sleep 5], elapsed := 5 }
    ∧ ∃ t, step { started with trace := [.setLevel chA true, .sleep 5], elapsed := 5 } = .next t :=
  ⟨⟨by simp [lastLevel, started, ready, State.startFrames], by simp [sleepTotal]⟩, _, rfl⟩
theorem test_witness_TraceGrowsByAtMostOneEvent :
    (∃ t, step started = .next t ∧ t.trace ≠ started.trace) ∧ ∃ t, step ready = .next t ∧ t.trace = ready.trace :=
  ⟨⟨_, rfl, by decide⟩, _, rfl, by decide⟩
theorem test_witness_ConfigurationImmutable :
    (∃ t, step ready = .next t) ∧ ready.noResetNext
    ∧ (∃ t, step (State.hosting State.reset [cmd 0x1000 [] 0 10]) = .next t ∧ t.channel = some chA)
    ∧ State.noResetNext (State.hosting State.reset [cmd 0x1000 [] 0 10]) :=
  ⟨⟨_, rfl⟩, noReset_ready, ⟨_, rfl, by decide⟩, by intro rest; simp [State.hosting, cmd]⟩
theorem test_witness_ParametersFixed : ∃ t, step started = .next t := ⟨_, rfl⟩
theorem test_witness_DrawsEnterNoEvent :
    started.Inv ∧ started.SameTraffic { started with line := .unknown, elapsed := 7, draws := 2 } ∧ (∃ t, step started = .next t)
    ∧ isRefused (step (State.hosting { State.reset with params := { Params.spec with outputs := some [] } }
        [cmd 0x1000 [] 0 10])) .channelNotConfigurable = true := ⟨started_inv, rfl, ⟨_, rfl⟩, by decide⟩
theorem test_witness_UnusedPortsIgnored :
    (∃ t, exec (.encode 0) ready = .next t) ∧ (∃ t, exec .configure (fresh 10) = .next t)
    ∧ (∃ t, exec .transmitOnce ready = .next t)
    ∧ { (fresh 10).ports with msg := [1], count := 5 }.rate = (fresh 10).ports.rate := ⟨⟨_, rfl⟩, ⟨_, rfl⟩, ⟨_, rfl⟩, rfl⟩
theorem test_witness_DecodeEncodeAgree : decode 0x20FF = some (.encode 0xFF) ∧ encode (.encode 0xFF) = 0x20FF := by decide
theorem test_witness_IllegalWordsExactly :
    Op.selectedBy .encode 0x2041 = true ∧ opcField 0x0FFF = 0x0 ∧ 0x6 ≤ (opcField 0x6000).toNat := by decide
theorem test_witness_StepRunsDecodedCommand :
    (State.hosting ready [cmd 0x20FF]).hostMoves = [cmd 0x20FF] ∧ decode 0x20FF = some (.encode 0xFF)
    ∧ ready.hostMoves = [] := by decide
theorem test_witness_HostReadsHaveNoSideEffect :
    (State.hosting ready [.readStatus]).hostMoves = [.readStatus]
    ∧ { State.hosting ready [.readEncResult] with encResult := some 0x891 }.encResult = some 0x891
    ∧ (State.hosting ready [.readEncResult]).encResult = none := by decide
theorem test_witness_ResetValues : (State.hosting started [.reset]).hostMoves = [.reset] := rfl
theorem test_witness_ResetInSleepAbandons :
    (State.hosting (busyAt .pre .wait 5 0 []) [.resetInSleep]).bitDuration = some 100 ∧ (100 : BitVec 10).toNat = 100
    ∧ (State.hosting (busyAt .gap .level 0 0 []) [.resetInSleep]).params.gapMs = 300
    ∧ (State.hosting ready [.resetInSleep]).phase = .idle
    ∧ (State.hosting (busyAt .pre .level 5 0 []) [.resetInSleep]).sub = .level := by decide

theorem test_witness_WaitingHostLetsBlockStep :
    (State.hosting started [.awaitIdle]).busy = true ∧ (∃ t, step (State.hosting started [.awaitIdle]) = .next t)
    ∧ (State.hosting ready [.awaitIdle]).busy = false ∧ (State.hosting ready [.yield]).hostMoves = [.yield] :=
  ⟨rfl, ⟨_, rfl⟩, rfl, rfl⟩

/-- Two instances, the second unconfigured and about to take the first's channel, or another. -/
def twoInstances (ch : Channel) : System :=
  { instances := [ready, State.hosting State.reset
      [.command { word := 0x1000, ports := { Ports.idle with channel := ch, rate := 10 } }]]
    draws := 5 }

theorem test_witness_InstancesIndependent : ∃ sys', (twoInstances ⟨4⟩).stepAt ⟨1, by decide⟩ = .next sys' := ⟨_, rfl⟩
theorem test_witness_SharedChannelRefused :
    (∃ t, step { (twoInstances chA).instances[1] with draws := 5 } = .next t ∧ t.channel = some chA)
    ∧ (twoInstances chA).instances[0]? = some ready ∧ ready.channel = some chA := ⟨⟨_, rfl, by decide⟩, rfl, rfl⟩
theorem test_witness_AssembledCommands :
    inSigned32 (-2147483648) = true ∧ inSigned32 2147483647 = true ∧ (255 ≤ 255) ∧ (1 ≤ 1)
    ∧ (∀ b ∈ ([0, 255] : List Nat), b ≤ 255) ∧ literalBytes ['A', backslashChar, quoteChar] = some [0x41, 0x22] := by decide
theorem test_witness_StringLiteralBytes :
    [' ', '~', 'H'].all plainChar = true ∧ literalBytes [] = some [] ∧ hexDigit? 'f' = some 15 ∧ hexDigit? 'F' = some 15
    ∧ hexDigit? '0' = some 0 := by decide

end Sys2Proof.Machine.Tests
end

section
/-! What a step adds to the trace (00_scope.md R10), and that no step writes the parameters (R7). -/

namespace Sys2Proof.Machine

variable {s t u : State}

/-! The trace, layer by layer: a read, a command, the block's step, a reset. -/

theorem ReadFrom.trace_eq (h : ReadFrom s u) : u.trace = s.trace := by
  rw [h.frame]

/-- The one event an accepted command can emit is CONFIGURE's (41_transmitter.md R100, R112). -/
theorem Accepted.trace_eq {i : Instr} (h : Accepted s i t) :
    t.trace = s.trace ∨ t.trace = s.trace ++ [.configureAsOutput s.ports.channel] := by
  cases h with
  | configured => exact .inr rfl
  | configureRejected | encoded | symbol | once | repeatedNone | repeated => exact .inl rfl

theorem exec_trace {i : Instr} (h : exec i s = .next t) :
    t.trace = s.trace ∨ t.trace = s.trace ++ [.configureAsOutput s.ports.channel] := by
  rcases exec_next h with ⟨f, -, rfl⟩ | ⟨-, ha⟩
  · exact .inl (s.raise_trace f)
  · exact ha.trace_eq

/-- The block's step emits exactly one event, except that an idle block waits (41_transmitter.md R113). -/
theorem BlockStepped.trace_eq (h : BlockStepped s t) :
    t.trace = s.trace ∨ ∃ e, t.trace = s.trace ++ [e] := by
  cases h with
  | waits => exact .inl rfl
  | level _ _ u ch v _ hu => exact .inr ⟨.setLevel ch v, by simp [hu.trace_eq]⟩
  | sleep _ _ u ms hu => exact .inr ⟨.sleep ms, by simp [hu.trace_eq]⟩

/-- Reset keeps the trace; inside a sleep the sleep's event is already in it (70_reset_and_hazards.md R166, R167). -/
theorem State.resetInSleep_trace (h : s.resetInSleep = .next t) :
    t.trace = s.trace ∨ ∃ e, t.trace = s.trace ++ [e] := by
  rcases State.resetInSleep_next h with ⟨-, rfl⟩ | ⟨-, u, ms, hu, rfl⟩
  · exact .inl s.blockReset_trace
  · exact .inr ⟨.sleep ms, by simp [hu.trace_eq]⟩

/-- Settles O42: of everything a step can do, only CONFIGURE, the block's step and a reset inside a sleep emit, one event each. -/
theorem traceGrowsByAtMostOneEvent : Obligations.TraceGrowsByAtMostOneEvent := by
  intro s t h
  cases step_next h with
  | block u moves hu _ hb => subst hu; exact hb.trace_eq
  | legalWord c rest i _ _ he => exact (exec_trace he).imp_right fun ht => ⟨_, ht⟩
  | resetInSleep rest _ hr => simpa using State.resetInSleep_trace hr
  | illegalWord | reset | readStatus | readEncResult | awaited => exact .inl (by simp)

/-! The parameters, along the same layers. -/

theorem ReadFrom.params_eq (h : ReadFrom s u) : u.params = s.params := by
  rw [h.frame]

theorem Accepted.params_eq {i : Instr} (h : Accepted s i t) : t.params = s.params := by
  cases h <;> simp

theorem exec_params {i : Instr} (h : exec i s = .next t) : t.params = s.params := by
  rcases exec_next h with ⟨f, -, rfl⟩ | ⟨-, ha⟩
  · exact s.raise_params f
  · exact ha.params_eq

theorem BlockStepped.params_eq (h : BlockStepped s t) : t.params = s.params := by
  cases h with
  | waits => rfl
  | level _ _ u ch v _ hu => simp [hu.params_eq]
  | sleep _ _ u ms hu => simp [hu.params_eq]

theorem State.resetInSleep_params (h : s.resetInSleep = .next t) : t.params = s.params := by
  rcases State.resetInSleep_next h with ⟨-, rfl⟩ | ⟨-, u, ms, hu, rfl⟩
  · exact s.blockReset_params
  · simp [hu.params_eq]

/-- Settles O44: commands, the block's step, resets and the host's reads each leave the parameters (log 3). -/
theorem parametersFixed : Obligations.ParametersFixed := by
  intro s t h
  cases step_next h with
  | block u moves hu _ hb => subst hu; exact hb.params_eq
  | legalWord c rest i _ _ he => simpa using exec_params he
  | resetInSleep rest _ hr => simpa using State.resetInSleep_params hr
  | illegalWord | reset | readStatus | readEncResult | awaited => simp

end Sys2Proof.Machine
end

section
/-! The block's invariant (`State.Inv`): it holds after a reset and every step keeps it. The fields it does not speak of come first,
then each thing a step can do to the block. -/

namespace Sys2Proof.Machine

variable {s t u : State}

/-! What the invariant does not depend on. -/

/-- The invariant does not speak of the sink's line and time, the host's side, the draws or the record of unwritten reads. -/
theorem State.Inv.outside (h : s.Inv) (line : Line) (elapsed draws : Nat) (hostMoves : List HostMove) (ports : Ports)
    (reads : List HostRead) (readFaults : List UnwrittenRead) :
    State.Inv { s with line, elapsed, draws, hostMoves, ports, reads, readFaults } :=
  { h with }

theorem State.Inv.readFrom (h : s.Inv) (hu : ReadFrom s u) : u.Inv := by
  rw [hu.frame]
  exact h.outside ..

theorem State.Inv.hostReadsEncResult (h : s.Inv) : s.hostReadsEncResult.Inv := by
  rcases s.hostReadsEncResult_eq with ⟨w, -, he⟩ | ⟨-, he⟩ <;> rw [he] <;> exact h.outside ..

theorem CmdFault.code_le (f : CmdFault) : f.code.toNat ≤ 5 := by
  cases f <;> decide

theorem State.Inv.raise (h : s.Inv) (f : CmdFault) : (s.raise f).Inv :=
  { h with
    faultLegal := by
      rw [State.raise_fault]
      split
      · exact f.code_le
      · exact h.faultLegal }

/-! Events: what is an output stays one (70_reset_and_hazards.md R167). -/

theorem State.isOutput_emit {ch : Channel} (e : Event) (h : s.isOutput ch = true) : (s.emit e).isOutput ch = true := by
  simp_all [State.isOutput]

theorem State.isOutput_emit_configureAsOutput (ch : Channel) : (s.emit (.configureAsOutput ch)).isOutput ch = true := by
  simp [State.isOutput]

theorem State.Inv.emit (h : s.Inv) (e : Event) : (s.emit e).Inv := by
  have hout : ∀ ch, s.channel = some ch → (s.emit e).isOutput ch = true ∧ Params.configurable s.params ch = true :=
    fun ch hc => (h.channelOutput ch hc).imp_left (State.isOutput_emit e)
  cases e <;> exact { h with channelOutput := hout }

/-! The sequencer's own fields: the invariant asks of them only the bound on REP, the reason for TRAIL and the position. -/

/-- A configured block may take any position that fits its phase. -/
theorem State.Inv.sequenced (h : s.Inv) (hv : s.cfgValid = true)
    (ht : t = { s with
      phase := t.phase, k := t.k, ci := t.ci, cw := t.cw, rep := t.rep, sub := t.sub, emitV := t.emitV, trail := t.trail
      msg := t.msg })
    (hr : t.rep ≤ 2147483646) (htr : t.trail = true → s.params.gapAfterLast = true) (hp : t.PositionOk) : t.Inv := by
  rw [ht] at hp ⊢
  exact { h with busyConfigured := fun _ => hv, repBound := hr, trailWanted := htr, position := hp }

/-! The end of a sleep (41_transmitter.md R115 to R120). -/

/-- At the end of a marker or a codeword with `CI` at most the message's length, the position fits (R115, R116). -/
theorem State.nextCodeword_positionOk (hk : s.k = 0) (hci : s.ci ≤ s.msg.length) : s.nextCodeword.PositionOk := by
  cases hb : s.msgRead s.ci with
  | some b =>
    rw [State.nextCodeword_some hb]
    exact ⟨by simp [hk], b, hb, rfl⟩
  | none =>
    rw [State.nextCodeword_none hb]
    exact ⟨by simp [hk], le_antisymm hci (List.getElem?_eq_none_iff.mp hb)⟩

/-- At the end of a frame the position fits wherever it goes: a gap, the trailing gap, or idle (R117). -/
theorem State.endFrame_positionOk (hk : s.k = 0) (hs : s.sub = .level) : s.endFrame.PositionOk := by
  unfold State.endFrame
  split
  case isTrue hr => exact ⟨hk, hs, hr⟩
  case isFalse hr =>
    have hr : s.rep = 0 := Nat.eq_zero_of_not_pos hr
    split
    case isTrue htr => exact ⟨hk, hs, hr, htr⟩
    case isFalse htr => exact ⟨hk, hr, hs, by simpa using htr⟩

theorem State.PositionOk.afterSleep (h : s.PositionOk) : s.afterSleep.PositionOk := by
  cases hp : s.phase <;> simp only [State.PositionOk, hp] at h <;> simp only [State.afterSleep, hp]
  case idle => simpa [State.PositionOk, hp] using h
  case single =>
    obtain ⟨hk, hr, htr, -⟩ := h
    exact ⟨hk, hr, rfl, htr⟩
  case pre =>
    obtain ⟨-, hci⟩ := h
    split
    case isTrue hk => simpa [State.PositionOk, hp, hci] using hk
    case isFalse => exact State.nextCodeword_positionOk rfl (by simp [hci])
  case data =>
    obtain ⟨-, b, hb, hcw⟩ := h
    split
    case isTrue hk => simp only [State.PositionOk]; exact ⟨hk, b, hb, hcw⟩
    case isFalse =>
      obtain ⟨hlt, -⟩ := List.getElem?_eq_some_iff.mp hb
      exact State.nextCodeword_positionOk rfl hlt
  case post =>
    obtain ⟨-, hci⟩ := h
    split
    case isTrue hk => simpa [State.PositionOk, hp, hci] using hk
    case isFalse => exact State.endFrame_positionOk rfl rfl
  case gap => exact ⟨Nat.zero_le _, rfl⟩
  case tailGap =>
    obtain ⟨hk, hs, hr, -⟩ := h
    exact ⟨hk, hr, hs, rfl⟩

/-- The end of a sleep writes the sequencer's fields alone. -/
theorem State.afterSleep_frame (s : State) :
    s.afterSleep = { s with
      phase := s.afterSleep.phase, k := s.afterSleep.k, ci := s.afterSleep.ci, cw := s.afterSleep.cw
      rep := s.afterSleep.rep, sub := s.afterSleep.sub, trail := s.afterSleep.trail } := by
  ext1 <;> simp

theorem State.afterSleep_rep_le (s : State) : s.afterSleep.rep ≤ s.rep := by
  unfold State.afterSleep
  repeat' split
  all_goals simp

/-- TRAIL is only cleared at the end of a sleep. -/
theorem State.trail_of_afterSleep (s : State) : s.afterSleep.trail = true → s.trail = true := by
  unfold State.afterSleep
  repeat' split
  all_goals simp

theorem State.Inv.afterSleep (h : s.Inv) (hv : s.cfgValid = true) : s.afterSleep.Inv :=
  h.sequenced hv (by simpa using s.afterSleep_frame) (s.afterSleep_rep_le.trans h.repBound)
    (h.trailWanted ∘ s.trail_of_afterSleep) h.position.afterSleep

/-! The block's step. -/

theorem State.Inv.cfgValid_of_phase (h : s.Inv) (hp : s.phase ≠ .idle) : s.cfgValid = true :=
  h.busyConfigured (s.busy_eq_true.mpr hp)

/-- Where the next step is a level step, a fitting position fits also once the level is set. -/
theorem State.PositionOk.waiting (h : s.PositionOk) (hp : s.phase ≠ .idle) (hs : s.sleepsNext = false) :
    State.PositionOk { s with sub := .wait } := by
  cases hph : s.phase <;> simp_all [State.PositionOk, State.sleepsNext, State.msgRead]

theorem BlockStepped.inv (hb : BlockStepped s t) (h : s.Inv) : t.Inv := by
  cases hb with
  | waits => exact h
  | level hp hs u ch v _ hu =>
    have hi : u.Inv := h.readFrom hu
    have hpos : State.PositionOk { u with sub := .wait } :=
      hi.position.waiting (by rwa [hu.frame]) (by rwa [hu.frame])
    have hv : u.cfgValid = true := by rw [hu.frame]; exact h.cfgValid_of_phase hp
    exact (hi.sequenced (t := { u with sub := .wait }) hv rfl hi.repBound hi.trailWanted hpos).emit (.setLevel ch v)
  | sleep hp _ u ms hu =>
    have hv : u.cfgValid = true := by rw [hu.frame]; exact h.cfgValid_of_phase hp
    exact ((h.readFrom hu).emit (.sleep ms)).afterSleep hv

/-! Commands. -/

theorem durationReg_le (rate : Signed32) : (durationReg rate).toNat ≤ 1000 := by
  have h : durationOf rate ≤ 1000 := Nat.div_le_self ..
  simp only [durationReg, BitVec.toNat_ofNat]
  omega

theorem repeatsAfterFirst_le (count : Signed32) : repeatsAfterFirst count ≤ 2147483646 := by
  have h : count.toInt < 2147483648 := by simpa using count.toInt_lt
  unfold repeatsAfterFirst
  omega

/-- Frames start at position 0 of a preamble, where the position fits with any message (41_transmitter.md R105, R109). -/
theorem State.Inv.startFrames (h : s.Inv) (hv : s.cfgValid = true) {rep : Nat} {trail : Bool} (hr : rep ≤ 2147483646)
    (htr : trail = true → s.params.gapAfterLast = true) : (s.startFrames rep trail).Inv :=
  h.sequenced hv rfl hr htr ⟨Nat.zero_le _, rfl⟩

/-- What an idle block of the invariant holds of the sequencer (10_state.md R30). -/
theorem State.Inv.idle_position (h : s.Inv) (hp : s.phase = .idle) :
    s.k = 0 ∧ s.rep = 0 ∧ s.sub = .level ∧ s.trail = false := by
  simpa only [State.PositionOk, hp] using h.position

theorem State.Inv.configured (h : s.Inv) (hc : Params.configurable s.params s.ports.channel = true) :
    State.Inv (State.emit
      { s with
        channel := some s.ports.channel
        bitDuration := some (durationReg s.ports.rate)
        cfgValid := true
        cfgErr := false }
      (.configureAsOutput s.ports.channel)) :=
  { h with
    channelHeld := rfl
    durationHeld := rfl
    durationBound := fun _ hd => Option.some.inj hd ▸ durationReg_le s.ports.rate
    channelOutput := fun _ hch => Option.some.inj hch ▸ ⟨State.isOutput_emit_configureAsOutput _, hc⟩
    busyConfigured := fun _ => rfl
    errorUnconfigured := nofun }

/-- An accepted command keeps the invariant: the checks it passed say that the block is idle and configured as it needs. -/
theorem Accepted.inv {i : Instr} (ha : Accepted s i t) (hck : s.check (some i.op) = none) (h : s.Inv) : t.Inv := by
  obtain ⟨hb, op, hop, hconf, htimed, -⟩ := State.check_none.mp hck
  cases hop
  cases ha with
  | configureRejected => exact { h with errorUnconfigured := fun _ => hconf rfl }
  | configured _ hc => exact h.configured hc
  | encoded byte => exact { h with resultCodeword := fun w hw => ⟨byte, (Option.some.inj hw).symm⟩ }
  | symbol v =>
    obtain ⟨hk, hr, -, htr⟩ := h.idle_position (s.busy_eq_false.mp hb)
    exact h.sequenced (htimed rfl) rfl h.repBound h.trailWanted ⟨hk, hr, htr, rfl⟩
  | once => exact h.startFrames (htimed rfl) (Nat.zero_le _) nofun
  | repeatedNone => exact h
  | repeated => exact h.startFrames (htimed rfl) (repeatsAfterFirst_le _) id

theorem exec_inv {i : Instr} (he : exec i s = .next t) (h : s.Inv) : t.Inv := by
  rcases exec_next he with ⟨f, -, rfl⟩ | ⟨hck, ha⟩
  · exact h.raise f
  · exact ha.inv hck h

/-! Resets. -/

/-- A reset establishes the invariant from any state (10_state.md R38). -/
theorem State.blockReset_inv (s : State) : s.blockReset.Inv where
  channelHeld := rfl
  durationHeld := rfl
  durationBound := nofun
  channelOutput := nofun
  busyConfigured := nofun
  errorUnconfigured := nofun
  faultLegal := Nat.zero_le _
  resultCodeword := nofun
  repBound := Nat.zero_le _
  trailWanted := nofun
  position := ⟨rfl, rfl, rfl, rfl⟩

theorem State.resetInSleep_inv (h : s.resetInSleep = .next t) : t.Inv := by
  rcases State.resetInSleep_next h with ⟨-, rfl⟩ | ⟨-, u, ms, -, rfl⟩ <;> exact State.blockReset_inv _

/-- Settles O40: commands, the block's step, resets and the host's reads each keep the invariant. -/
theorem invariantKeptByEveryStep : Obligations.InvariantKeptByEveryStep := by
  intro s t h hstep
  cases step_next hstep with
  | block u moves hu _ hb => subst hu; exact hb.inv (h.outside ..)
  | legalWord c rest i _ _ he => exact exec_inv he (h.outside ..)
  | illegalWord c rest f => exact State.Inv.raise (h.outside ..) f
  | reset => exact State.blockReset_inv _
  | resetInSleep rest _ hr => exact State.resetInSleep_inv hr
  | readStatus | awaited => exact h.outside ..
  | readEncResult => exact State.Inv.hostReadsEncResult (h.outside ..)

end Sys2Proof.Machine
end

section
/-! The sink's agreement with the trace (`State.SinkInv`; 10_state.md R33): it holds after power-on and every step keeps it. -/

namespace Sys2Proof.Machine

variable {s t u : State}

/-! One more event at the end of a trace. -/

@[simp] theorem lastLevel_append_setLevel (trace : List Event) (ch : Channel) (v : Bool) :
    lastLevel (trace ++ [.setLevel ch v]) = some v := by
  simp [lastLevel]

@[simp] theorem lastLevel_append_configureAsOutput (trace : List Event) (ch : Channel) :
    lastLevel (trace ++ [.configureAsOutput ch]) = none := by
  simp [lastLevel]

@[simp] theorem lastLevel_append_sleep (trace : List Event) (ms : Nat) :
    lastLevel (trace ++ [.sleep ms]) = lastLevel trace := by
  simp [lastLevel]

theorem sleepTotal_append (trace more : List Event) :
    sleepTotal (trace ++ more) = sleepTotal trace + sleepTotal more := by
  simp [sleepTotal]

theorem le_sleepTotal_append {n : Nat} {trace : List Event} (e : Event) (h : n ≤ sleepTotal trace) :
    n ≤ sleepTotal (trace ++ [e]) := by
  rw [sleepTotal_append]
  exact Nat.le_add_right_of_le h

theorem sleepTotal_append_sleep (trace : List Event) (ms : Nat) :
    sleepTotal (trace ++ [.sleep ms]) = sleepTotal trace + ms := by
  simp [sleepTotal]

/-! What the sink and its trace see of a step. -/

/-- Only the trace, the line and the time matter. -/
theorem State.SinkInv.of_eq (h : s.SinkInv) (htr : t.trace = s.trace) (hl : t.line = s.line)
    (he : t.elapsed = s.elapsed) : t.SinkInv where
  lineSet := by rw [htr, hl]; exact h.lineSet
  timeBound := by rw [htr, he]; exact h.timeBound

theorem State.SinkInv.readFrom (h : s.SinkInv) (hu : ReadFrom s u) : u.SinkInv := by
  rw [hu.frame]
  exact h.of_eq rfl rfl rfl

theorem State.SinkInv.emit (h : s.SinkInv) (e : Event) : (s.emit e).SinkInv := by
  cases e with
  | configureAsOutput ch =>
    exact { lineSet := by simp, timeBound := le_sleepTotal_append _ h.timeBound }
  | setLevel ch v =>
    exact { lineSet := by simp, timeBound := le_sleepTotal_append _ h.timeBound }
  | sleep ms =>
    exact { lineSet := by simpa using h.lineSet, timeBound := by simpa [sleepTotal_append_sleep] using h.timeBound }

/-- A sleep cut short lets at most its own length pass (70_reset_and_hazards.md R166). -/
theorem State.SinkInv.emitCutSleep (h : s.SinkInv) (ms : Nat) : (s.emitCutSleep ms).SinkInv where
  lineSet := by simpa using h.lineSet
  timeBound := by
    rw [State.emitCutSleep_elapsed, State.emitCutSleep_trace, sleepTotal_append_sleep]
    exact Nat.add_le_add h.timeBound (Nat.min_le_right ..)

theorem State.SinkInv.blockReset (h : s.SinkInv) : s.blockReset.SinkInv :=
  h.of_eq rfl rfl rfl

theorem Accepted.sinkInv {i : Instr} (ha : Accepted s i t) (h : s.SinkInv) : t.SinkInv := by
  cases ha with
  | configured =>
    refine State.SinkInv.emit ?_ _
    exact h.of_eq rfl rfl rfl
  | configureRejected | encoded | symbol | once | repeatedNone | repeated => exact h.of_eq rfl rfl rfl

theorem exec_sinkInv {i : Instr} (he : exec i s = .next t) (h : s.SinkInv) : t.SinkInv := by
  rcases exec_next he with ⟨f, -, rfl⟩ | ⟨-, ha⟩
  · exact h.of_eq rfl rfl rfl
  · exact ha.sinkInv h

theorem BlockStepped.sinkInv (hb : BlockStepped s t) (h : s.SinkInv) : t.SinkInv := by
  cases hb with
  | waits => exact h
  | level _ _ u ch v _ hu => exact ((h.readFrom hu).emit (.setLevel ch v)).of_eq rfl rfl rfl
  | sleep _ _ u ms hu => exact ((h.readFrom hu).emit (.sleep ms)).of_eq (by simp) (by simp) (by simp)

theorem State.resetInSleep_sinkInv (hr : s.resetInSleep = .next t) (h : s.SinkInv) : t.SinkInv := by
  rcases State.resetInSleep_next hr with ⟨-, rfl⟩ | ⟨-, u, ms, hu, rfl⟩
  · exact h.blockReset
  · exact ((h.readFrom hu).emitCutSleep ms).blockReset

/-- Settles O41: only CONFIGURE, the block's step and a reset inside a sleep reach the sink, and each tells the trace. -/
theorem sinkAgreesWithTrace : Obligations.SinkAgreesWithTrace := by
  intro s t h hstep
  cases step_next hstep with
  | block u moves hu _ hb => subst hu; exact hb.sinkInv (h.of_eq rfl rfl rfl)
  | legalWord c rest i _ _ he => exact exec_sinkInv he (h.of_eq rfl rfl rfl)
  | resetInSleep rest _ hr => exact State.resetInSleep_sinkInv hr (h.of_eq rfl rfl rfl)
  | illegalWord | reset | readStatus | readEncResult | awaited => exact h.of_eq (by simp) (by simp) (by simp)

/-- Settles O39: power-on is a block reset of itself, with nothing in the trace. -/
theorem invariantAtReset : Obligations.InvariantAtReset :=
  ⟨State.reset.blockReset_inv, { lineSet := nofun, timeBound := Nat.zero_le _ }⟩

end Sys2Proof.Machine
end

section
/-! What a step that is no reset leaves of the block's lasting registers: `FAULT` once set (10_state.md R27), and the configuration
(R32). -/

namespace Sys2Proof.Machine

variable {s t u : State}

/-- The block's step writes the sequencer's position, the sink's fields and the record of unwritten reads alone. -/
theorem BlockStepped.frame (h : BlockStepped s t) :
    t = { s with
      phase := t.phase, k := t.k, ci := t.ci, cw := t.cw, rep := t.rep, sub := t.sub, trail := t.trail
      trace := t.trace, line := t.line, elapsed := t.elapsed, draws := t.draws, readFaults := t.readFaults } := by
  cases h with
  | waits => rfl
  | level _ _ u ch v _ hu => rw [hu.frame]; rfl
  | sleep _ _ u ms hu =>
    rw [hu.frame]
    ext1 <;> simp

/-! `FAULT`. -/

theorem BlockStepped.fault_eq (h : BlockStepped s t) : t.fault = s.fault := by
  rw [h.frame]

theorem Accepted.fault_eq {i : Instr} (h : Accepted s i t) : t.fault = s.fault := by
  cases h <;> simp

/-- The first fault is the one kept (10_state.md R27; 60_exceptions.md R144). -/
theorem State.raise_fault_of_ne_zero (h : s.fault ≠ 0) (f : CmdFault) : (s.raise f).fault = s.fault := by
  rw [State.raise_fault, if_neg h]

theorem exec_fault_of_ne_zero {i : Instr} (he : exec i s = .next t) (h : s.fault ≠ 0) : t.fault = s.fault := by
  rcases exec_next he with ⟨f, -, rfl⟩ | ⟨-, ha⟩
  · exact State.raise_fault_of_ne_zero h f
  · exact ha.fault_eq

/-- Settles O22: a command that is rejected again keeps the first fault, and nothing else but a reset writes FAULT. -/
theorem firstFaultKept : Obligations.FirstFaultKept := by
  intro s t hstep h hno
  cases step_next hstep with
  | block u moves hu _ hb => subst hu; exact hb.fault_eq
  | legalWord c rest i _ _ he => exact (exec_fault_of_ne_zero he h :)
  | illegalWord c rest f => exact State.raise_fault_of_ne_zero h f
  | reset rest hm => exact absurd hm (hno rest).1
  | resetInSleep rest hm => exact absurd hm (hno rest).2
  | readStatus | readEncResult | awaited => simp

/-! The configuration. -/

/-- CHANNEL, BIT_DURATION and CFG_VALID are those of another state (10_state.md R32). -/
def State.SameConfig (s t : State) : Prop :=
  t.channel = s.channel ∧ t.bitDuration = s.bitDuration ∧ t.cfgValid = s.cfgValid

theorem BlockStepped.sameConfig (h : BlockStepped s t) : s.SameConfig t := by
  rw [h.frame]
  exact ⟨rfl, rfl, rfl⟩

/-- The only accepted command that writes the configuration is a CONFIGURE with a positive rate (41_transmitter.md R100). -/
theorem Accepted.sameConfig_or {i : Instr} (h : Accepted s i t) :
    s.SameConfig t ∨
      (i = .configure ∧ 0 < s.ports.rate.toInt ∧ t.channel = some s.ports.channel ∧ t.cfgValid = true) := by
  cases h with
  | configured hr => exact .inr ⟨rfl, by simpa [nonPositive] using hr, rfl, rfl⟩
  | configureRejected | encoded | symbol | once | repeatedNone | repeated => exact .inl ⟨rfl, rfl, rfl⟩

theorem exec_sameConfig_or {i : Instr} (he : exec i s = .next t) :
    s.SameConfig t ∨
      (i = .configure ∧ s.cfgValid = false ∧ s.busy = false ∧ 0 < s.ports.rate.toInt
        ∧ t.channel = some s.ports.channel ∧ t.cfgValid = true) := by
  rcases exec_next he with ⟨f, -, rfl⟩ | ⟨hck, ha⟩
  · exact .inl ⟨rfl, rfl, rfl⟩
  · refine ha.sameConfig_or.imp_right fun ⟨hi, hrest⟩ => ?_
    obtain ⟨hb, op, hop, hconf, -⟩ := State.check_none.mp hck
    cases hop
    exact ⟨hi, hconf (by rw [hi]; rfl), hb, hrest⟩

/-- CONFIGURE has one word (30_encoding.md R73). -/
theorem word_of_decode_configure {w : CmdWord} (h : decode w = some .configure) : w = 0x1000 := by
  obtain ⟨o, ho, hi⟩ := Option.map_eq_some_iff.mp h
  have hsel : o.selectedBy w = true := List.find?_some (p := fun o : Op => o.selectedBy w) ho
  cases o <;> cases hi
  have hmask : w &&& Op.maskBits .configure = w := BitVec.and_allOnes
  simpa [Op.selectedBy, hmask, Op.matchBits] using hsel

/-- Settles O43: the accepted CONFIGURE writes the configuration, and nothing else but a reset does. -/
theorem configurationImmutable : Obligations.ConfigurationImmutable := by
  intro s t hstep hno
  cases step_next hstep with
  | block u moves hu _ hb => subst hu; exact .inl hb.sameConfig
  | legalWord c rest i hm hd he =>
    refine (exec_sameConfig_or he).imp_right fun ⟨hi, hv, hb, hr, hch, hvalid⟩ => ?_
    exact ⟨hv, hb, c, rest, hm, word_of_decode_configure (hi ▸ hd), hr, hch, hvalid⟩
  | reset rest hm => exact absurd hm (hno rest).1
  | resetInSleep rest hm => exact absurd hm (hno rest).2
  | illegalWord | readStatus | readEncResult | awaited => exact .inl (by simp)

end Sys2Proof.Machine
end

section
/-! Instances share nothing but the draw counter, which never goes back (10_state.md R39; log 15). -/

namespace Sys2Proof.Machine

variable {s t u : State}

theorem ReadFrom.draws_le (h : ReadFrom s u) : s.draws ≤ u.draws := by
  cases h <;> simp

theorem State.draws_le_emit (s : State) (e : Event) : s.draws ≤ (s.emit e).draws := by
  cases e <;> simp

theorem Accepted.draws_le {i : Instr} (h : Accepted s i t) : s.draws ≤ t.draws := by
  cases h with
  | configured => exact Nat.le_succ _
  | configureRejected | encoded | symbol | once | repeatedNone | repeated => exact le_rfl

theorem exec_draws_le {i : Instr} (he : exec i s = .next t) : s.draws ≤ t.draws := by
  rcases exec_next he with ⟨f, -, rfl⟩ | ⟨-, ha⟩
  · exact le_rfl
  · exact ha.draws_le

theorem BlockStepped.draws_le (h : BlockStepped s t) : s.draws ≤ t.draws := by
  cases h with
  | waits => exact le_rfl
  | level _ _ u ch v _ hu => exact hu.draws_le.trans (u.draws_le_emit _)
  | sleep _ _ u ms hu => simpa using hu.draws_le

theorem State.resetInSleep_draws_le (h : s.resetInSleep = .next t) : s.draws ≤ t.draws := by
  rcases State.resetInSleep_next h with ⟨-, rfl⟩ | ⟨-, u, ms, hu, rfl⟩
  · exact le_rfl
  · exact hu.draws_le.trans (Nat.le_succ _)

theorem step_draws_le (h : step s = .next t) : s.draws ≤ t.draws := by
  cases step_next h with
  | block u moves hu _ hb => subst hu; exact hb.draws_le
  | legalWord c rest i _ _ he => exact (exec_draws_le he :)
  | resetInSleep rest _ hr => exact (State.resetInSleep_draws_le hr :)
  | illegalWord | reset | readStatus | readEncResult | awaited => simp

/-- Settles O55: a system's step replaces one block by that block's own step, drawn at the shared counter. -/
theorem instancesIndependent : Obligations.InstancesIndependent := by
  intro sys sys' n h
  obtain ⟨t, ht, rfl, hd⟩ := System.stepAt_next h
  refine ⟨?_, fun j hj => ?_, ⟨t, ht, ?_, rfl⟩, ?_, ?_⟩
  · exact List.length_set
  · exact List.getElem?_set_ne (Ne.symm hj)
  · exact List.getElem?_set_self n.isLt
  · simpa [System.distinct] using hd
  · exact step_draws_le ht

end Sys2Proof.Machine
end

section
/-! STATUS, the host's reads and moves, reset, and the sequencer's reads of unwritten registers (10_state.md R23, R34, R38). -/

namespace Sys2Proof.Machine

variable {s : State}

/-- STATUS bit by bit (10_state.md R23): the three flags, the reserved 0, then FAULT. -/
theorem State.status_getLsbD (s : State) (i : Nat) :
    s.status.getLsbD i =
      if i = 0 then s.cfgValid else if i = 1 then s.busy else if i = 2 then s.cfgErr else if i = 3 then false
      else s.fault.getLsbD (i - 4) := by
  change BitVec.getLsbD (w := 4 + 1 + 1 + 1 + 1) (s.fault ++ 0#1 ++ _ ++ _ ++ _) i = _
  simp only [BitVec.getLsbD_append]
  rcases i with _ | _ | _ | _ | i <;> simp

/-- Settles O51: the five fields of the concatenation, read back at their bits. -/
theorem statusLayout : Obligations.StatusLayout := by
  intro s
  have hfault : s.status.extractLsb' 4 4 = s.fault := by
    apply BitVec.eq_of_getLsbD_eq
    intro i hi
    rw [BitVec.getLsbD_extractLsb', State.status_getLsbD, Nat.add_comm 4 i]
    simp [hi]
  exact ⟨s.status_getLsbD 0, s.status_getLsbD 1, s.status_getLsbD 2, s.status_getLsbD 3, hfault, s.busy_eq_true⟩

/-- The host's next move is taken off the list and made (20_memory.md R57). -/
theorem step_hostMove {m : HostMove} {rest : List HostMove} (h : s.hostMoves = m :: rest) :
    step s = State.hostMove { s with hostMoves := rest } m := by
  simp [step, State.advance, h]

theorem State.hostReadsEncResult_some {w : BitVec 16} (h : s.encResult = some w) :
    s.hostReadsEncResult = { s with reads := s.reads ++ [.encResult w] } := by
  simp [State.hostReadsEncResult, h]

theorem State.hostReadsEncResult_none (h : s.encResult = none) :
    s.hostReadsEncResult = { s with readFaults := s.readFaults ++ [.encResult] } := by
  simp [State.hostReadsEncResult, h, State.noteUnwritten]

/-- Settles O52: each read is one host move, a record of the value or of the fault. -/
theorem hostReadsHaveNoSideEffect : Obligations.HostReadsHaveNoSideEffect := by
  refine ⟨fun s rest hm => ?_, fun s rest w hm hw => ?_, fun s rest hm hw => ?_⟩
  · rw [step_hostMove hm]
    rfl
  · rw [step_hostMove hm]
    exact congrArg _ (State.hostReadsEncResult_some (s := { s with hostMoves := rest }) hw)
  · rw [step_hostMove hm]
    exact congrArg _ (State.hostReadsEncResult_none (s := { s with hostMoves := rest }) hw)

theorem State.blockReset_status (s : State) : s.blockReset.status = 0x00 := by
  simp [State.status, State.busy]

/-- Settles O53: the power-on values are the model's literal, and a reset move is a block reset. -/
theorem resetValues : Obligations.ResetValues := by
  refine ⟨by decide, fun s rest hm => ?_⟩
  exact ⟨State.blockReset { s with hostMoves := rest }, step_hostMove hm, State.blockReset_status _, rfl⟩

/-! The block's step by what it is to do (41_transmitter.md R113). -/

theorem State.blockStep_of_level (hp : s.phase ≠ .idle) (hs : s.sleepsNext = false) : s.blockStep = s.levelStep := by
  simp [State.blockStep, hp, hs]

theorem State.blockStep_of_sleep (hp : s.phase ≠ .idle) (hs : s.sleepsNext = true) : s.blockStep = s.sleepStep := by
  simp [State.blockStep, hp, hs]

/-- In a symbol the next step is a sleep exactly when the level is set (41_transmitter.md R114 to R117, R119). -/
theorem State.sleepsNext_of_symbol (hp : s.phase = .single ∨ s.phase = .pre ∨ s.phase = .data ∨ s.phase = .post) :
    s.sleepsNext = (s.sub == .wait) := by
  rcases hp with hp | hp | hp | hp <;> simp [State.sleepsNext, hp]

theorem State.levelStep_of_channel {ch : Channel} (hc : s.channel = some ch) :
    s.levelStep = s.symbolLevel fun u v => .next { u.emit (.setLevel ch v) with sub := .wait } := by
  simp [State.levelStep, need, hc]

theorem State.levelStep_of_no_channel (hc : s.channel = none) : s.levelStep = .fault .channelNone := by
  simp [State.levelStep, need, hc]

theorem State.symbolLevel_single_unwritten (hp : s.phase = .single) (he : s.emitV = none)
    (run : State → Bool → Host.Outcome State Fault Refusal) :
    s.symbolLevel run
      = run { s.noteUnwritten .emitV with draws := s.draws + 1 } (Config.unwrittenLevel s.draws) := by
  simp [State.symbolLevel, State.readRegister, hp, he]

theorem State.symbolLevel_data_unwritten (hp : s.phase = .data) (hw : s.cw = none)
    (run : State → Bool → Host.Outcome State Fault Refusal) :
    s.symbolLevel run
      = run { s.noteUnwritten .cw with draws := s.draws + 1 } (pos (Config.unwrittenCodeword s.draws) s.k) := by
  simp [State.symbolLevel, State.readRegister, hp, hw]

theorem State.sleepLength_unwritten (hp : s.phase ≠ .gap) (hp' : s.phase ≠ .tailGap) (hd : s.bitDuration = none)
    (run : State → Nat → Host.Outcome State Fault Refusal) :
    s.sleepLength run
      = run { s.noteUnwritten .bitDuration with draws := s.draws + 1 } (Config.unwrittenDuration s.draws).toNat := by
  cases h : s.phase <;> simp_all [State.sleepLength, State.readRegister]

/-- The invariant rules out every read of an unwritten register (10_state.md R24, R34; U9). -/
theorem State.Inv.registersHeld (h : s.Inv) (hb : s.busy = true) : s.RegistersHeld where
  channel := h.channelHeld ▸ h.busyConfigured hb
  bitDuration := h.durationHeld ▸ h.busyConfigured hb
  emitV hp := by
    have hpos := h.position
    simp only [State.PositionOk, hp] at hpos
    obtain ⟨-, -, -, he⟩ := hpos
    exact he
  cw hp := by
    have hpos := h.position
    simp only [State.PositionOk, hp] at hpos
    obtain ⟨-, b, -, hcw⟩ := hpos
    simp [hcw]

/-- Settles O30: the step of each kind, its register unwritten, then the registers of the invariant. -/
theorem unwrittenReadsFault : Obligations.UnwrittenReadsFault := by
  refine ⟨fun s ch hp hs hc he => ?_, fun s ch hp hs hc hw => ?_, fun s hp hs hd => ?_, fun s hb hs hc => ?_,
    fun s h hb => h.registersHeld hb⟩
  · have hnext : s.sleepsNext = false := by simp [State.sleepsNext, hp, hs]
    rw [State.blockStep_of_level (by simp [hp]) hnext, State.levelStep_of_channel hc,
      State.symbolLevel_single_unwritten hp he]
    exact ⟨_, rfl⟩
  · have hnext : s.sleepsNext = false := by simp [State.sleepsNext, hp, hs]
    rw [State.blockStep_of_level (by simp [hp]) hnext, State.levelStep_of_channel hc,
      State.symbolLevel_data_unwritten hp hw]
    exact ⟨_, rfl⟩
  · have hsym : s.phase ≠ .idle ∧ s.phase ≠ .gap ∧ s.phase ≠ .tailGap := by
      rcases hp with hp | hp | hp | hp <;> simp [hp]
    obtain ⟨hidle, hgap, htail⟩ := hsym
    have hnext : s.sleepsNext = true := by simp [State.sleepsNext_of_symbol hp, hs]
    rw [State.blockStep_of_sleep hidle hnext, State.sleepStep, State.sleepLength_unwritten hgap htail hd]
    exact ⟨_, Config.unwrittenDuration s.draws, rfl, by simp⟩
  · rw [State.blockStep_of_level (s.busy_eq_true.mp hb) hs, State.levelStep_of_no_channel hc]

end Sys2Proof.Machine
end

section
/-! The decoder and the encoder are inverse to each other (30_encoding.md R70 to R75): a word selects an operation exactly when it is
that operation's match pattern with an operand in the bits outside the mask. -/

namespace Sys2Proof

/-! Fields: every mask holds all of OPC, so the word a mask selects has the match pattern's OPC (R73). -/

theorem opcField_and (w v : CmdWord) : opcField (w &&& v) = opcField w &&& opcField v :=
  BitVec.extractLsb'_and

theorem Op.opcField_maskBits (o : Op) : opcField o.maskBits = BitVec.allOnes 4 := by
  cases o <;> decide

theorem Op.opcField_matchBits_injective {o o' : Op} (h : opcField o.matchBits = opcField o'.matchBits) : o = o' := by
  revert h
  cases o <;> cases o' <;> decide

theorem Op.selectedBy_iff {o : Op} {w : CmdWord} : o.selectedBy w = true ↔ w &&& o.maskBits = o.matchBits :=
  beq_iff_eq

theorem Op.opcField_of_selectedBy {o : Op} {w : CmdWord} (h : o.selectedBy w = true) :
    opcField w = opcField o.matchBits := by
  rw [← Op.selectedBy_iff.mp h, opcField_and, o.opcField_maskBits, BitVec.and_allOnes]

/-- A word selects at most one operation (R75). -/
theorem Op.selectedBy_unique {o o' : Op} {w : CmdWord} (h : o.selectedBy w = true) (h' : o'.selectedBy w = true) : o = o' :=
  Op.opcField_matchBits_injective ((Op.opcField_of_selectedBy h).symm.trans (Op.opcField_of_selectedBy h'))

theorem Op.mem_all (o : Op) : o ∈ Op.all := by
  cases o <;> decide

/-- The decoder's operation is the one the word selects: which one the search meets first does not matter. -/
theorem decodeOp_eq_some {w : CmdWord} {o : Op} : decodeOp w = some o ↔ o.selectedBy w = true := by
  have hfound : ∀ o', decodeOp w = some o' → o'.selectedBy w = true :=
    fun _ => List.find?_some (p := fun o : Op => o.selectedBy w)
  refine ⟨hfound o, fun h => ?_⟩
  cases hd : decodeOp w with
  | none => exact absurd h (List.find?_eq_none.mp hd o o.mem_all)
  | some o' => rw [Op.selectedBy_unique h (hfound o' hd)]

theorem decode_eq_some {w : CmdWord} {i : Instr} :
    decode w = some i ↔ ∃ o : Op, o.selectedBy w = true ∧ o.withOperand w = i := by
  simp [decode, decodeOp_eq_some]

/-! The encoder's words. -/

@[simp] theorem encode_encode_toNat (byte : Byte) : (encode (.encode byte)).toNat = 0x2000 ||| byte.toNat :=
  BitVec.toNat_append (0x2#4 ++ 0#4) byte

@[simp] theorem encode_emitSymbol_toNat (v : Bool) : (encode (.emitSymbol v)).toNat = 0x3000 ||| v.toNat := by
  rw [← BitVec.toNat_ofBool]
  exact BitVec.toNat_append (0x3#4 ++ 0#11) (BitVec.ofBool v)

theorem getLsbD_zero_toNat (w : CmdWord) : (w.getLsbD 0).toNat = w.toNat % 2 := by
  rw [BitVec.getLsbD, Nat.toNat_testBit, pow_zero, Nat.div_one]

/-- The encoder puts an operand in the bits outside the operation's mask, and its match pattern in the others (R73). -/
theorem encode_withOperand (o : Op) (w : CmdWord) :
    encode (o.withOperand w) = o.matchBits ||| (w &&& ~~~o.maskBits) := by
  cases o with
  | configure | transmitOnce | transmitRepeated => simp [Op.withOperand, Op.matchBits, Op.maskBits, encode]
  | encode =>
    apply BitVec.eq_of_toNat_eq
    have hlow : w.toNat &&& 0xFF = w.toNat % 256 := Nat.and_two_pow_sub_one_eq_mod w.toNat 8
    simp [Op.withOperand, Op.matchBits, Op.maskBits, hlow]
  | emitSymbol =>
    apply BitVec.eq_of_toNat_eq
    rw [Op.withOperand, encode_emitSymbol_toNat, getLsbD_zero_toNat]
    simp [Op.matchBits, Op.maskBits]

/-- No bit of a selected word is lost: its bits are the match pattern's under the mask, and the operand's outside it. -/
theorem encode_withOperand_of_selectedBy {o : Op} {w : CmdWord} (h : o.selectedBy w = true) :
    encode (o.withOperand w) = w := by
  rw [encode_withOperand, ← Op.selectedBy_iff.mp h, ← BitVec.and_or_distrib_left, BitVec.or_not_self, BitVec.and_allOnes]

theorem encode_legal_and_selects (i : Instr) : Laws.Encoding.Statement i := by
  cases i with
  | configure => exact Laws.Encoding.configure
  | encode byte => exact Laws.Encoding.encode byte
  | emitSymbol v => exact Laws.Encoding.emitSymbol v
  | transmitOnce => exact Laws.Encoding.transmitOnce
  | transmitRepeated => exact Laws.Encoding.transmitRepeated

theorem wordLegal_encode (i : Instr) : wordLegal (encode i) = true :=
  (encode_legal_and_selects i).1

theorem selectedBy_encode (i : Instr) : i.op.selectedBy (encode i) = true :=
  ((encode_legal_and_selects i).2 i.op).mpr rfl

theorem withOperand_encode (i : Instr) : i.op.withOperand (encode i) = i := by
  cases i with
  | configure | transmitOnce | transmitRepeated => rfl
  | encode byte => exact congrArg Instr.encode BitVec.extractLsb'_append_eq_right
  | emitSymbol v => cases v <;> rfl

theorem decode_encode (i : Instr) : decode (encode i) = some i :=
  decode_eq_some.mpr ⟨i.op, selectedBy_encode i, withOperand_encode i⟩

/-- Settles O47: decoding selects the operation and reads its operand, and encoding writes both back. -/
theorem decodeEncodeAgree : Obligations.DecodeEncodeAgree := by
  intro w i
  constructor
  · intro h
    obtain ⟨o, ho, rfl⟩ := decode_eq_some.mp h
    exact encode_withOperand_of_selectedBy ho
  · rintro rfl
    exact decode_encode i

/-! Legal words are those that select an operation (R74). -/

theorem eq_of_fields_eq {w v : CmdWord} (hopc : opcField w = opcField v) (himm : immField w = immField v) : w = v := by
  have happend : ∀ u : CmdWord, opcField u ++ immField u = u := fun _ => BitVec.extractLsb'_append_extractLsb'
  rw [← happend w, hopc, himm, happend v]

/-- A word selects the operation whose OPC it has, where it is 0 in IMM under that operation's mask. -/
theorem Op.selectedBy_of_fields {o : Op} {w : CmdWord} (hopc : opcField w = opcField o.matchBits)
    (himm : immField w &&& immField o.maskBits = 0#12) : o.selectedBy w = true := by
  have hmatch : immField o.matchBits = 0#12 := by cases o <;> decide
  refine Op.selectedBy_iff.mpr (eq_of_fields_eq ?_ ?_)
  · rw [opcField_and, o.opcField_maskBits, BitVec.and_allOnes, hopc]
  · rw [hmatch, ← himm]
    exact BitVec.extractLsb'_and

/-- A word whose bits from `k` up are 0 is 0 under their mask. -/
theorem and_allOnes_append_zero {m k : Nat} {x : BitVec (m + k)} (h : x.extractLsb' k m = 0#m) :
    x &&& (BitVec.allOnes m ++ 0#k) = 0#(m + k) := by
  rw [← BitVec.extractLsb'_append_extractLsb' (x := x), h, BitVec.and_append]
  simp

theorem exists_selectedBy_of_wordLegal {w : CmdWord} (h : wordLegal w = true) : ∃ o : Op, o.selectedBy w = true := by
  unfold wordLegal at h
  split at h
  case h_1 hopc =>
    exact ⟨.configure, Op.selectedBy_of_fields (BitVec.eq_of_toNat_eq hopc) (by rw [eq_of_beq h]; rfl)⟩
  case h_2 hopc =>
    exact ⟨.encode, Op.selectedBy_of_fields (BitVec.eq_of_toNat_eq hopc) (and_allOnes_append_zero (m := 4) (eq_of_beq h))⟩
  case h_3 hopc =>
    exact ⟨.emitSymbol, Op.selectedBy_of_fields (BitVec.eq_of_toNat_eq hopc) (and_allOnes_append_zero (m := 11) (eq_of_beq h))⟩
  case h_4 hopc =>
    exact ⟨.transmitOnce, Op.selectedBy_of_fields (BitVec.eq_of_toNat_eq hopc) (by rw [eq_of_beq h]; rfl)⟩
  case h_5 hopc =>
    exact ⟨.transmitRepeated, Op.selectedBy_of_fields (BitVec.eq_of_toNat_eq hopc) (by rw [eq_of_beq h]; rfl)⟩
  case h_6 => exact absurd h Bool.false_ne_true

theorem wordLegal_iff_selects {w : CmdWord} : wordLegal w = true ↔ ∃ o : Op, o.selectedBy w = true :=
  ⟨exists_selectedBy_of_wordLegal, fun ⟨o, h⟩ => encode_withOperand_of_selectedBy h ▸ wordLegal_encode (o.withOperand w)⟩

theorem wordLegal_of_reserved {w : CmdWord} (h : opcField w = 0x0 ∨ 0x6 ≤ (opcField w).toNat) : wordLegal w = false := by
  have hopc : (opcField w).toNat = 0 ∨ 6 ≤ (opcField w).toNat := h.imp_left fun h0 => by rw [h0]; rfl
  unfold wordLegal
  split
  case h_6 => rfl
  all_goals omega

theorem decode_eq_none {w : CmdWord} : decode w = none ↔ wordLegal w = false := by
  rw [← Bool.not_eq_true, wordLegal_iff_selects, Option.eq_none_iff_forall_ne_some]
  simp [decode_eq_some]

/-- Settles O48: the masks and the field check refuse the same words, reserved OPC values among them. -/
theorem illegalWordsExactly : Obligations.IllegalWordsExactly := fun _ =>
  ⟨decode_eq_none, fun _ _ => Op.selectedBy_unique, fun h => decode_eq_none.mpr (wordLegal_of_reserved h)⟩

/-- Settles O49: each word's operation and operand, or none, by evaluation of the decoder. -/
theorem specWordsDecode : Obligations.SpecWordsDecode := by
  unfold Obligations.SpecWordsDecode
  decide

end Sys2Proof
end

section
/-! What a command reads of the ports (30_encoding.md R71), and what a step does with the word presented (R70). -/

namespace Sys2Proof.Machine

variable {s t : State} {p : Ports}

/-- The checks read no port but OP_MSG, and that for a command with a message alone (60_exceptions.md R148). -/
theorem State.check_withPorts {o : Op} (hmsg : Op.takesMessage o = true → p.msg = s.ports.msg) :
    State.check { s with ports := p } (some o) = s.check (some o) := by
  cases ho : Op.takesMessage o with
  | false => simp [State.check, State.busy, ho]
  | true => simp [State.check, State.busy, ho, hmsg ho]

/-- Where the checks and the command itself take no notice of the changed ports, neither does the checked command. -/
theorem State.checked_withPorts {o : Op} {run : State → Host.Outcome State Fault Refusal}
    (hmsg : Op.takesMessage o = true → p.msg = s.ports.msg)
    (hrun : run s = .next t → run { s with ports := p } = .next { t with ports := p })
    (h : s.checked (some o) run = .next t) :
    State.checked { s with ports := p } (some o) run = .next { t with ports := p } := by
  rw [State.checked_next, State.check_withPorts hmsg]
  rcases State.checked_next.mp h with ⟨f, hf, rfl⟩ | ⟨hck, hn⟩
  · exact .inl ⟨f, hf, rfl⟩
  · exact .inr ⟨hck, hrun hn⟩

theorem execEncode_withPorts {byte : Byte} (h : execEncode byte s = .next t) :
    execEncode byte { s with ports := p } = .next { t with ports := p } :=
  State.checked_withPorts nofun (fun hn => by cases hn; rfl) h

theorem execEmitSymbol_withPorts {v : Bool} (h : execEmitSymbol v s = .next t) :
    execEmitSymbol v { s with ports := p } = .next { t with ports := p } :=
  State.checked_withPorts nofun (fun hn => by cases hn; rfl) h

theorem execConfigure_withPorts (hch : p.channel = s.ports.channel) (hrate : p.rate = s.ports.rate)
    (h : execConfigure s = .next t) : execConfigure { s with ports := p } = .next { t with ports := p } := by
  refine State.checked_withPorts nofun (fun hn => ?_) h
  simp only [hch, hrate]
  split at hn
  case isTrue hr => cases hn; exact if_pos hr
  case isFalse hr =>
    rw [if_neg hr]
    split at hn
    case isTrue hc => cases hn; exact if_pos hc
    case isFalse => cases hn

theorem execTransmitOnce_withPorts (hmsg : p.msg = s.ports.msg) (h : execTransmitOnce s = .next t) :
    execTransmitOnce { s with ports := p } = .next { t with ports := p } := by
  refine State.checked_withPorts (fun _ => hmsg) (fun hn => ?_) h
  cases hn
  simp [State.startFrames, hmsg]

theorem execTransmitRepeated_withPorts (hmsg : p.msg = s.ports.msg) (hcount : p.count = s.ports.count)
    (h : execTransmitRepeated s = .next t) :
    execTransmitRepeated { s with ports := p } = .next { t with ports := p } := by
  refine State.checked_withPorts (fun _ => hmsg) (fun hn => ?_) h
  simp only [hcount]
  split at hn
  case isTrue hc => cases hn; exact if_pos hc
  case isFalse hc => cases hn; rw [if_neg hc]; simp [State.startFrames, hmsg]

/-- Settles O46: each command's checks and its effect read only the ports it uses. -/
theorem unusedPortsIgnored : Obligations.UnusedPortsIgnored := fun _ _ _ =>
  ⟨fun _ => execEncode_withPorts, fun _ => execEmitSymbol_withPorts, execConfigure_withPorts, execTransmitOnce_withPorts,
    execTransmitRepeated_withPorts⟩

theorem State.issue_of_decode {c : Command} {i : Instr} (hd : decode c.word = some i) :
    s.issue c = exec i { s with ports := c.ports } := by
  simp [State.issue, hd]

theorem step_of_silent_host (h : s.hostMoves = []) : step s = s.blockStep := by
  simp [step, State.advance, h]

/-- Settles O50: a command is the host move `issue`, which decodes the word; a silent host leaves the step to the block. -/
theorem stepRunsDecodedCommand : Obligations.StepRunsDecodedCommand := by
  refine ⟨fun s c rest i hm hd => ?_, fun s => step_of_silent_host⟩
  rw [step_hostMove hm]
  exact State.issue_of_decode hd

/-! Codewords as numbers, and the frame's length (30_encoding.md R61, R68). -/

/-- A number's `n` low bits as weights, the most significant first. -/
theorem mod_two_pow_eq_sum (x n : Nat) :
    x % 2 ^ n = ((List.range n).map fun p => (x.testBit (n - 1 - p)).toNat * 2 ^ (n - 1 - p)).sum := by
  induction n with
  | zero => simp [Nat.mod_one]
  | succ n ih =>
    simp only [Nat.sub_sub, Nat.add_comm 1] at ih
    simp only [List.range_succ_eq_map, List.map_cons, List.sum_cons, List.map_map, Function.comp_def, Nat.succ_eq_add_one,
      Nat.add_sub_cancel, Nat.sub_zero, ← ih]
    rw [Nat.mod_pow_succ, Nat.toNat_testBit, Nat.add_comm, Nat.mul_comm]

theorem pos_eq_testBit {w : Codeword} {p : Nat} (hp : p < 12) : pos w p = w.toNat.testBit (11 - p) := by
  simp [pos, BitVec.getMsbD, BitVec.getLsbD, hp]

/-- Settles O3: a 12-bit word is its own remainder by 2^12, whose bits position by position are `pos`. -/
theorem codewordPacking : Obligations.CodewordPacking := by
  intro w
  constructor
  · calc w.toNat = w.toNat % 2 ^ 12 := (Nat.mod_eq_of_lt w.isLt).symm
      _ = _ := mod_two_pow_eq_sum w.toNat 12
      _ = _ := congrArg List.sum (List.map_congr_left fun p hp => by rw [pos_eq_testBit (List.mem_range.mp hp)])
  · apply BitVec.eq_of_toNat_eq
    have hlt : w.toNat < 4096 := w.isLt
    rw [BitVec.extractLsb'_toNat, BitVec.toNat_setWidth, Nat.shiftRight_eq_div_pow, BitVec.toNat_zero]
    omega

@[simp] theorem markerSymbols_length : markerSymbols.length = 8 := rfl

@[simp] theorem cwBits_length (w : Codeword) : (cwBits w).length = 12 := by
  simp [cwBits]

@[simp] theorem frameSymbols_length (m : List Byte) : (frameSymbols m).length = 16 + 12 * m.length := by
  have hbytes : (m.flatMap fun b => cwBits (hammingEncode b)).length = 12 * m.length := by simp [Nat.mul_comm]
  rw [frameSymbols, List.length_append, List.length_append, hbytes, markerSymbols_length]
  omega

@[simp] theorem frameTrace_length (ch : Channel) (dur : Nat) (m : List Byte) :
    (frameTrace ch dur m).length = 2 * (16 + 12 * m.length) := by
  simp [frameTrace, symbolTrace, Nat.mul_comm]

/-- Settles O32: two markers of 8 symbols and 12 symbols a byte, each symbol two events. -/
theorem frameLengths : Obligations.FrameLengths :=
  ⟨frameSymbols_length, fun ch dur m => ⟨rfl, frameTrace_length ch dur m⟩, rfl, fun ch dur => frameTrace_length ch dur []⟩

end Sys2Proof.Machine
end

section
/-! The assembler: what each kind of operand gives, and that a line fails exactly where one of them is ill formed (30_encoding.md R77
to R79). -/

namespace Sys2Proof.Machine

/-! String literals (R79), one equation for each way a literal can begin. -/

theorem plainChar_iff {c : Char} :
    plainChar c = true ↔ 0x20 ≤ c.toNat ∧ c.toNat ≤ 0x7E ∧ c ≠ quoteChar ∧ c ≠ backslashChar := by
  simp [plainChar, and_assoc]

theorem literalBytes_plain {c : Char} (hc : plainChar c = true) (rest : List Char) :
    literalBytes (c :: rest) = (literalBytes rest).map (BitVec.ofNat 8 c.toNat :: ·) := by
  obtain ⟨-, -, -, hb⟩ := plainChar_iff.mp hc
  rw [literalBytes.eq_def]
  simp [hb, hc]

theorem literalBytes_escape {e : Char} (he : e = quoteChar ∨ e = backslashChar) (rest : List Char) :
    literalBytes (backslashChar :: e :: rest) = (literalBytes rest).map (BitVec.ofNat 8 e.toNat :: ·) := by
  rw [literalBytes.eq_def]
  simp [he]

theorem literalBytes_hex {h l : Char} {hi lo : Nat} (hh : hexDigit? h = some hi) (hl : hexDigit? l = some lo)
    (rest : List Char) :
    literalBytes (backslashChar :: 'x' :: h :: l :: rest)
      = (literalBytes rest).map (BitVec.ofNat 8 (16 * hi + lo) :: ·) := by
  have hx : 'x' ≠ quoteChar ∧ 'x' ≠ backslashChar := by decide
  rw [literalBytes.eq_def]
  simp [hx, hh, hl]

/-- A literal of plain characters is their codes: each is at most 0x7E, so it fits a byte. -/
theorem literalBytes_all_plain {chars : List Char} (h : chars.all plainChar = true) :
    ∃ bytes, literalBytes chars = some bytes ∧ bytes.map BitVec.toNat = chars.map Char.toNat := by
  induction chars with
  | nil => exact ⟨[], rfl, rfl⟩
  | cons c rest ih =>
    rw [List.all_cons, Bool.and_eq_true] at h
    obtain ⟨hc, hrest⟩ := h
    obtain ⟨bytes, hbytes, hcodes⟩ := ih hrest
    obtain ⟨-, hle, -⟩ := plainChar_iff.mp hc
    have hfits : c.toNat < 256 := by omega
    exact ⟨BitVec.ofNat 8 c.toNat :: bytes, by simp [literalBytes_plain hc, hbytes], by simp [hcodes, hfits]⟩

/-- Settles O59: the literal's equations, read on a rest that is well formed. -/
theorem stringLiteralBytes : Obligations.StringLiteralBytes := by
  refine ⟨rfl, fun c rest bytes hc hr => ?_, fun rest bytes hr => ⟨?_, ?_, fun h l hi lo hh hl => ?_⟩,
    fun chars => literalBytes_all_plain⟩
  · rw [literalBytes_plain hc, hr]; rfl
  · rw [literalBytes_escape (.inl rfl), hr]; rfl
  · rw [literalBytes_escape (.inr rfl), hr]; rfl
  · rw [literalBytes_hex hh hl, hr]; rfl

/-! A literal, a message and a number are read exactly where they are well formed. -/

/-- The check takes the branches that reading the literal takes; where it reads two hexadecimal digits, both must be there. -/
theorem literalBytes_isSome (chars : List Char) : (literalBytes chars).isSome = literalWellFormed chars := by
  fun_induction literalBytes chars <;> rw [literalWellFormed.eq_def]
  case case5 c hc e he hx h l rest hdigits =>
    have hfalse : ((hexDigit? h).isSome && (hexDigit? l).isSome) = false := by
      cases hh : hexDigit? h with
      | none => rfl
      | some hi =>
        cases hl : hexDigit? l with
        | none => rfl
        | some lo => exact (hdigits hi lo hh hl).elim
    simp [hc, he, hx, hfalse]
  all_goals simp [*]

theorem messageBytes_isSome (message : AsmMessage) : (messageBytes message).isSome = message.wellFormed := by
  cases message with
  | bytes values => rw [Bool.eq_iff_iff, messageBytes, Option.isSome_ite]
  | literal chars => exact literalBytes_isSome chars

theorem operand32_isSome (n : Int) : (operand32 n).isSome = inSigned32 n := by
  rw [Bool.eq_iff_iff, operand32, Option.isSome_ite]

/-- Settles O57: a line is assembled where each of its operands is read. -/
theorem assembleExactlyWellFormed : Obligations.AssembleExactlyWellFormed := by
  intro line
  cases line with
  | configure channel rate =>
    cases rate with
    | none => rfl
    | some rate => simp [assemble, operand32_isSome, AsmLine.wellFormed]
  | encode byte => rw [Bool.eq_iff_iff, assemble, Option.isSome_ite, AsmLine.wellFormed, decide_eq_true_iff]
  | emitSymbol v => rw [Bool.eq_iff_iff, assemble, Option.isSome_ite, AsmLine.wellFormed, decide_eq_true_iff]
  | transmitOnce message => simp [assemble, messageBytes_isSome, AsmLine.wellFormed]
  | transmitRepeated message count =>
    simp only [assemble, AsmLine.wellFormed, ← messageBytes_isSome, ← operand32_isSome]
    cases messageBytes message <;> cases operand32 count <;> rfl

/-! What a well-formed line's operands hold. -/

theorem inSigned32_iff {n : Int} : inSigned32 n = true ↔ -2147483648 ≤ n ∧ n ≤ 2147483647 := by
  simp [inSigned32]

/-- A 32-bit operand in range holds the integer itself (R77). -/
theorem operand32_of_inSigned32 {n : Int} (h : inSigned32 n = true) :
    ∃ v, operand32 n = some v ∧ v.toInt = n := by
  obtain ⟨hlo, hhi⟩ := inSigned32_iff.mp h
  exact ⟨_, operand32_eq_some.mpr ⟨h, rfl⟩, BitVec.toInt_ofInt_eq_self (by decide) (by omega) (by omega)⟩

/-- A byte list in range holds the numbers themselves (R79). -/
theorem messageBytes_of_le {values : List Nat} (h : ∀ b ∈ values, b ≤ 255) :
    ∃ m, messageBytes (.bytes values) = some m ∧ m.map BitVec.toNat = values := by
  refine ⟨values.map (BitVec.ofNat 8), by simpa [messageBytes, AsmMessage.wellFormed] using h, ?_⟩
  rw [List.map_map]
  refine (List.map_congr_left fun b hb => ?_).trans values.map_id
  exact Nat.mod_eq_of_lt (Nat.lt_succ_of_le (h b hb))

theorem assemble_configure {ch : Channel} {rate : Int} {r : Signed32} (h : operand32 rate = some r) :
    assemble (.configure ch (some rate))
      = some { word := 0x1000, ports := { Ports.idle with channel := ch, rate := r } } := by
  rw [assemble, Option.getD_some, h]; rfl

theorem assemble_transmitOnce {message : AsmMessage} {m : List Byte} (h : messageBytes message = some m) :
    assemble (.transmitOnce message) = some { word := 0x4000, ports := { Ports.idle with msg := m } } := by
  rw [assemble, h]; rfl

theorem assemble_transmitRepeated {message : AsmMessage} {count : Int} {m : List Byte} {v : Signed32}
    (h : messageBytes message = some m) (hv : operand32 count = some v) :
    assemble (.transmitRepeated message count)
      = some { word := 0x5000, ports := { Ports.idle with msg := m, count := v } } := by
  rw [assemble, h, hv]; rfl

/-- Settles O58: the encoder's words, and the ports as their operands are read. -/
theorem assembledCommands : Obligations.AssembledCommands := by
  refine ⟨fun ch rate hr => ?_, fun _ => rfl, fun byte hb => ?_, fun v hv => ?_, fun values hvs => ?_, fun chars m hm => ?_,
    fun values count hvs hc => ?_, fun chars m count hm hc => ?_⟩
  · obtain ⟨r, hread, hint⟩ := operand32_of_inSigned32 hr
    exact ⟨_, assemble_configure hread, rfl, rfl, hint⟩
  · refine ⟨_, if_pos hb, ?_, decode_encode _⟩
    rw [encode_encode_toNat, BitVec.toNat_ofNat, Nat.mod_eq_of_lt (by omega)]
  · refine ⟨_, if_pos hv, ?_⟩
    rw [encode_emitSymbol_toNat]
    interval_cases v <;> rfl
  · obtain ⟨m, hread, hnat⟩ := messageBytes_of_le hvs
    exact ⟨_, assemble_transmitOnce hread, rfl, hnat⟩
  · exact ⟨_, assemble_transmitOnce (message := .literal chars) hm, rfl, rfl⟩
  · obtain ⟨m, hread, hnat⟩ := messageBytes_of_le hvs
    obtain ⟨n, hcount, hint⟩ := operand32_of_inSigned32 hc
    exact ⟨_, assemble_transmitRepeated hread hcount, rfl, hnat, hint⟩
  · obtain ⟨n, hcount, hint⟩ := operand32_of_inSigned32 hc
    exact ⟨_, assemble_transmitRepeated (message := .literal chars) hm hcount, rfl, rfl, hint⟩

end Sys2Proof.Machine
end

section
/-! The codeword function by its positions (30_encoding.md R60 to R63; 40_encoder.md R85, R86). -/

namespace Sys2Proof.Machine

variable {v w : Codeword} {p : Nat}

/-! Positions of a codeword: what building it, or-ing and exclusive-or do to them. -/

theorem codeword_ext (h : ∀ p < 12, pos v p = pos w p) : v = w :=
  BitVec.eq_of_getMsbD_eq h

@[simp] theorem pos_or : pos (v ||| w) p = (pos v p || pos w p) := BitVec.getMsbD_or

@[simp] theorem pos_xor : pos (v ^^^ w) p = (pos v p ^^ pos w p) := BitVec.getMsbD_xor

/-- A bit put at position `q` is at no other position (R61). -/
theorem pos_ofBool_shiftLeft {q : Nat} (c : Bool) (hq : q < 12) :
    pos ((BitVec.ofBool c).setWidth 12 <<< (11 - q)) p = (decide (p = q) && c) := by
  simp only [pos, BitVec.getMsbD_shiftLeft, BitVec.getMsbD_setWidth, BitVec.getMsbD_ofBool]
  rw [← Bool.and_assoc, ← Bool.decide_and]
  congr 2
  rw [eq_iff_iff]
  omega

/-- Packing the first `n` positions fills those and leaves the others 0 (R61). -/
theorem pos_packing (c : Nat → Bool) {n : Nat} (hn : n ≤ 12) :
    pos ((List.range n).foldl (fun w q => w ||| (BitVec.ofBool (c q)).setWidth 12 <<< (11 - q)) 0) p
      = (decide (p < n) && c p) := by
  induction n with
  | zero => simp [pos]
  | succ n ih =>
    rw [List.range_succ, List.foldl_append, List.foldl_cons, List.foldl_nil, pos_or, ih (by omega),
      pos_ofBool_shiftLeft _ hn]
    by_cases hpn : p = n
    · simp [hpn]
    · have hlt : p < n + 1 ↔ p < n := by omega
      simp [hpn, hlt]

theorem pos_packPositions (c : Nat → Bool) (hp : p < 12) : pos (packPositions c) p = c p := by
  rw [packPositions, pos_packing c le_rfl, decide_eq_true hp, Bool.true_and]

theorem pos_hammingEncode (b : Byte) (hp : p < 12) : pos (hammingEncode b) p = codeBit b p :=
  pos_packPositions (codeBit b) hp

/-! The tables: a data position is no parity position, and a parity position covers data positions alone (R60, R63). -/

theorem dataMap_data {e : Nat × Nat} (h : e ∈ dataMap) :
    e.1 < 12 ∧ coverMap.lookup e.1 = none ∧ dataMap.lookup e.1 = some e.2 := by
  revert e
  decide

theorem coverMap_data {covered : List Nat} (h : coverMap.lookup p = some covered) :
    p < 12 ∧ ∀ q ∈ covered, q < 12 ∧ coverMap.lookup q = none := by
  have hall : ∀ e ∈ coverMap, e.1 < 12 ∧ ∀ q ∈ e.2, q < 12 ∧ coverMap.lookup q = none := by decide
  obtain ⟨before, after, hmap, -⟩ := List.lookup_eq_some_iff.mp h
  exact hall (p, covered) (by simp [hmap])

/-- A data position holds the byte bit the table gives (R60). -/
theorem pos_hammingEncode_data {i : Nat} (b : Byte) (h : (p, i) ∈ dataMap) : pos (hammingEncode b) p = b.getLsbD i := by
  obtain ⟨hp, hcover, hdata⟩ := dataMap_data h
  rw [pos_hammingEncode b hp, codeBit, hcover]
  simp only [dataBit, hdata]

/-- A parity position holds the exclusive-or of the positions it covers (R63). -/
theorem pos_hammingEncode_parity {covered : List Nat} (b : Byte) (h : coverMap.lookup p = some covered) :
    pos (hammingEncode b) p = xorAll (covered.map (pos (hammingEncode b))) := by
  obtain ⟨hp, hcovered⟩ := coverMap_data h
  have hbits : covered.map (pos (hammingEncode b)) = covered.map (dataBit b) := by
    refine List.map_congr_left fun q hq => ?_
    obtain ⟨hq12, hnone⟩ := hcovered q hq
    rw [pos_hammingEncode b hq12, codeBit, hnone]
  rw [pos_hammingEncode b hp, codeBit, h, hbits]

/-- Settles O1: the data positions are the table's entries, and each parity is taken over the list it covers. -/
theorem codewordPositions : Obligations.CodewordPositions := by
  intro b
  refine ⟨?_, ?_, ?_, ?_, ?_⟩
  · refine ⟨?_, ?_, ?_, ?_, ?_, ?_, ?_, ?_⟩ <;> exact pos_hammingEncode_data b (by decide)
  all_goals
    refine (pos_hammingEncode_parity b rfl).trans ?_
    simp [xorAll]

/-! Exclusive-or of lists of bits. -/

@[simp] theorem xorAll_nil : xorAll [] = false := rfl

@[simp] theorem xorAll_cons (x : Bool) (bits : List Bool) : xorAll (x :: bits) = (x ^^ xorAll bits) := by
  rw [xorAll, List.foldl_cons, Bool.false_xor]
  conv => lhs; rw [← Bool.xor_false x]
  exact List.foldl_assoc

theorem xorAll_perm {bits bits' : List Bool} (h : bits.Perm bits') : xorAll bits = xorAll bits' := by
  induction h with
  | nil => rfl
  | cons x _ ih => rw [xorAll_cons, xorAll_cons, ih]
  | swap x y l => simp only [xorAll_cons, Bool.xor_left_comm]
  | trans _ _ ih₁ ih₂ => exact ih₁.trans ih₂

theorem xorAll_map_xor {α : Type} (l : List α) (f g : α → Bool) :
    xorAll (l.map fun x => f x ^^ g x) = (xorAll (l.map f) ^^ xorAll (l.map g)) := by
  induction l with
  | nil => rfl
  | cons x l ih => simp only [List.map_cons, xorAll_cons, ih, Bool.xor_assoc, Bool.xor_left_comm]

/-- Bits masked out add nothing. -/
theorem xorAll_map_and {α : Type} (l : List α) (f mask : α → Bool) :
    xorAll (l.map fun x => f x && mask x) = xorAll ((l.filter mask).map f) := by
  induction l with
  | nil => rfl
  | cons x l ih => cases hx : mask x <;> simp [hx, ih]

/-! The bit-slice form (40_encoder.md R86). -/

/-- The parity of a masked byte is that of the byte's bits under the mask, in any order. -/
theorem parity8_and {mask : Byte} {bits : List Nat} (b : Byte) (h : bits.Perm ((List.range 8).filter mask.getLsbD)) :
    parity8 (b &&& mask) = xorAll (bits.map b.getLsbD) :=
  calc parity8 (b &&& mask) = xorAll ((List.range 8).map fun i => b.getLsbD i && mask.getLsbD i) := by
        rw [parity8]; exact congrArg xorAll (List.map_congr_left fun _ _ => BitVec.getLsbD_and)
    _ = xorAll (((List.range 8).filter mask.getLsbD).map b.getLsbD) := xorAll_map_and ..
    _ = xorAll (bits.map b.getLsbD) := (xorAll_perm (h.map _)).symm

/-- The four masks, each with the byte bits it leaves. -/
theorem parity8_masks (b : Byte) :
    parity8 (b &&& 0xDA) = xorAll ([7, 6, 4, 3, 1].map b.getLsbD)
      ∧ parity8 (b &&& 0xB6) = xorAll ([7, 5, 4, 2, 1].map b.getLsbD)
      ∧ parity8 (b &&& 0x71) = xorAll ([6, 5, 4, 0].map b.getLsbD)
      ∧ parity8 (b &&& 0x0F) = xorAll ([3, 2, 1, 0].map b.getLsbD) := by
  refine ⟨?_, ?_, ?_, ?_⟩ <;> exact parity8_and b (by decide)

theorem hammingEncode_eq_slices (b : Byte) : hammingEncode b = hammingSlices b := by
  obtain ⟨hDA, hB6, h71, h0F⟩ := parity8_masks b
  refine BitVec.eq_of_getMsbD_eq (w := 1 + 1 + 1 + 1 + 3 + 1 + 4) fun p hp => (pos_hammingEncode b hp).trans ?_
  rw [hammingSlices, hDA, hB6, h71, h0F]
  simp only [BitVec.getMsbD_append, BitVec.getMsbD_ofBool, BitVec.getMsbD_extractLsb']
  interval_cases p <;> rfl

/-- Settles O2: position by position, with each mask's bits those the parity position covers. -/
theorem codewordByBitSlices : Obligations.CodewordByBitSlices := by
  intro b
  obtain ⟨hDA, hB6, h71, h0F⟩ := parity8_masks b
  refine ⟨hammingEncode_eq_slices b, hDA.trans ?_, hB6.trans ?_, h71.trans ?_, h0F.trans ?_⟩ <;> simp [xorAll]

end Sys2Proof.Machine
end

section
/-! The code is linear over exclusive-or (40_encoder.md R93), and so is its syndrome (R90). -/

namespace Sys2Proof.Machine

variable {b : Byte} {r v w : Codeword} {p q : Nat}

/-! Linearity of the codeword function (R93). -/

@[simp] theorem dataBit_xor (a b : Byte) (p : Nat) : dataBit (a ^^^ b) p = (dataBit a p ^^ dataBit b p) := by
  unfold dataBit
  cases dataMap.lookup p with
  | none => rfl
  | some i => exact BitVec.getLsbD_xor

theorem codeBit_xor (a b : Byte) (p : Nat) : codeBit (a ^^^ b) p = (codeBit a p ^^ codeBit b p) := by
  unfold codeBit
  cases coverMap.lookup p with
  | none => exact dataBit_xor a b p
  | some covered =>
    rw [← xorAll_map_xor]
    exact congrArg xorAll (List.map_congr_left fun q _ => dataBit_xor a b q)

theorem hammingEncode_xor (a b : Byte) : hammingEncode (a ^^^ b) = hammingEncode a ^^^ hammingEncode b := by
  refine codeword_ext fun p hp => ?_
  rw [pos_xor, pos_hammingEncode _ hp, pos_hammingEncode _ hp, pos_hammingEncode _ hp, codeBit_xor]

theorem hammingEncode_zero : hammingEncode 0#8 = 0#12 := by decide

/-! A word is the exclusive-or of its set bits. -/

theorem getLsbD_foldl_setBits {n k : Nat} (x : BitVec n) (hk : k ≤ n) (j : Nat) :
    ((List.range k).foldl (fun y i => if x.getLsbD i then y ^^^ 1#n <<< i else y) 0#n).getLsbD j
      = (decide (j < k) && x.getLsbD j) := by
  induction k with
  | zero => simp
  | succ k ih =>
    have hbit : (1#n <<< k).getLsbD j = decide (k = j) := by
      rw [← BitVec.twoPow_eq, BitVec.getLsbD_twoPow, decide_eq_true (Nat.lt_of_succ_le hk), Bool.true_and]
    rw [List.range_succ, List.foldl_append, List.foldl_cons, List.foldl_nil]
    have ih := ih (by omega)
    by_cases hj : k = j
    · subst hj
      cases hx : x.getLsbD k <;> simp [hx, ih, hbit]
    · have hlt : j < k + 1 ↔ j < k := by omega
      split <;> simp [ih, hbit, hj, hlt]

theorem eq_foldl_setBits {n : Nat} (x : BitVec n) :
    x = (List.range n).foldl (fun y i => if x.getLsbD i then y ^^^ 1#n <<< i else y) 0#n := by
  refine BitVec.eq_of_getLsbD_eq fun j hj => ?_
  rw [getLsbD_foldl_setBits x le_rfl, decide_eq_true hj, Bool.true_and]

/-- A codeword is the exclusive-or of the basis codewords of its byte's set bits: encoding follows the byte's own sum. -/
theorem hammingEncode_eq_foldl (b : Byte) :
    hammingEncode b
      = (List.range 8).foldl (fun w i => if b.getLsbD i then w ^^^ hammingEncode (1#8 <<< i) else w) 0#12 := by
  conv => lhs; rw [eq_foldl_setBits b]
  rw [← hammingEncode_zero]
  refine (List.foldl_hom hammingEncode fun x i => ?_).symm
  split
  · exact (hammingEncode_xor x _).symm
  · rfl

/-- Settles O7: each codeword bit is an exclusive-or of byte bits, and a byte is that of its set bits. -/
theorem encodeLinear : Obligations.EncodeLinear :=
  ⟨hammingEncode_xor, by decide, hammingEncode_eq_foldl⟩

/-! The syndrome: linear, 0 on codewords, and the position's number on a single bit (R90). -/

theorem checkBit_xor (v w : Codeword) (p : Nat) : checkBit (v ^^^ w) p = (checkBit v p ^^ checkBit w p) := by
  unfold checkBit
  cases coverMap.lookup p with
  | none => rfl
  | some covered =>
    rw [← xorAll_map_xor]
    exact congrArg xorAll (List.map_congr_left fun q _ => pos_xor)

/-- Four bits set side by side are exclusive-ored bit by bit. -/
theorem ofBool_append_xor (v₃ v₂ v₁ v₀ w₃ w₂ w₁ w₀ : Bool) :
    (BitVec.ofBool v₃ ++ BitVec.ofBool v₂ ++ BitVec.ofBool v₁ ++ BitVec.ofBool v₀)
        ^^^ (BitVec.ofBool w₃ ++ BitVec.ofBool w₂ ++ BitVec.ofBool w₁ ++ BitVec.ofBool w₀)
      = BitVec.ofBool (v₃ ^^ w₃) ++ BitVec.ofBool (v₂ ^^ w₂) ++ BitVec.ofBool (v₁ ^^ w₁) ++ BitVec.ofBool (v₀ ^^ w₀) := by
  simp only [BitVec.xor_append, BitVec.ofBool_xor_ofBool]

theorem syndrome_xor (v w : Codeword) : syndrome (v ^^^ w) = syndrome v ^^^ syndrome w := by
  simp only [syndrome, checkBit_xor]
  exact (ofBool_append_xor ..).symm

/-- A codeword's parity position is what its covered positions give, so each check cancels. -/
theorem checkBit_hammingEncode (b : Byte) (p : Nat) : checkBit (hammingEncode b) p = false := by
  unfold checkBit
  cases h : coverMap.lookup p with
  | none => rfl
  | some covered => simp only [List.map_cons, xorAll_cons, pos_hammingEncode_parity b h, Bool.xor_self]

@[simp] theorem syndrome_hammingEncode (b : Byte) : syndrome (hammingEncode b) = 0#4 := by
  simp only [syndrome, checkBit_hammingEncode]
  rfl

/-- A word with integer bit `i` alone set has the number of its position, counted from 1, as its syndrome. -/
theorem syndrome_singleBit {i : Nat} (hi : i < 12) : (syndrome (1#12 <<< i)).toNat = 12 - i := by
  revert i
  decide

theorem syndrome_flipPos (r : Codeword) (p : Nat) : syndrome (flipPos r p) = syndrome r ^^^ syndrome (1#12 <<< (11 - p)) :=
  syndrome_xor ..

theorem syndrome_flipPos_hammingEncode (b : Byte) (hp : p < 12) :
    (syndrome (flipPos (hammingEncode b) p)).toNat = p + 1 := by
  rw [syndrome_flipPos, syndrome_hammingEncode, BitVec.zero_xor, syndrome_singleBit (by omega)]
  omega

@[simp] theorem pos_flipPos_same (r : Codeword) (hp : p < 12) : pos (flipPos r p) p = !pos r p := by
  have hbit : pos (1#12 <<< (11 - p)) p = true := by
    revert p
    decide
  rw [flipPos, pos_xor, hbit, Bool.xor_true]

theorem flipPos_flipPos (r : Codeword) (p : Nat) : flipPos (flipPos r p) p = r := by
  rw [flipPos, flipPos, BitVec.xor_assoc, BitVec.xor_self, BitVec.xor_zero]

theorem getLsbD_ofBool_append (s₃ s₂ s₁ s₀ : Bool) :
    let s := BitVec.ofBool s₃ ++ BitVec.ofBool s₂ ++ BitVec.ofBool s₁ ++ BitVec.ofBool s₀
    s.getLsbD 0 = s₀ ∧ s.getLsbD 1 = s₁ ∧ s.getLsbD 2 = s₂ ∧ s.getLsbD 3 = s₃ := by
  revert s₃ s₂ s₁ s₀
  decide

/-- The four syndrome bits, each a check over the parity position and the positions it covers. -/
theorem syndrome_bits (r : Codeword) :
    (syndrome r).getLsbD 0 = checkBit r 0 ∧ (syndrome r).getLsbD 1 = checkBit r 1
      ∧ (syndrome r).getLsbD 2 = checkBit r 3 ∧ (syndrome r).getLsbD 3 = checkBit r 7 :=
  getLsbD_ofBool_append ..

/-- Settles O5: the checks over the tables' lists, which cancel on a codeword, and linearity for one inversion. -/
theorem syndromeNamesInversion : Obligations.SyndromeNamesInversion := by
  refine ⟨fun r => ?_, syndrome_hammingEncode, fun b p =>
    ⟨pos_flipPos_same _ p.isLt, syndrome_flipPos_hammingEncode b p.isLt⟩⟩
  obtain ⟨h0, h1, h2, h3⟩ := syndrome_bits r
  refine ⟨h0.trans ?_, h1.trans ?_, h2.trans ?_, h3.trans ?_⟩ <;>
    simp [checkBit, coverMap, xorAll, List.lookup]

/-! Decoding: the data bits of a codeword, and the correction of one inversion (R94). -/

/-- Extraction reads the byte's bits at the data positions. -/
theorem getLsbD_extractData {i : Nat} (r : Codeword) (h : (p, i) ∈ dataMap) : (extractData r).getLsbD i = pos r p := by
  refine BitVec.getLsbD_append.trans ?_
  simp only [BitVec.getLsbD_append, BitVec.getLsbD_extractLsb']
  simp only [dataMap, List.mem_cons, Prod.mk.injEq, List.not_mem_nil, or_false] at h
  rcases h with ⟨rfl, rfl⟩ | ⟨rfl, rfl⟩ | ⟨rfl, rfl⟩ | ⟨rfl, rfl⟩ | ⟨rfl, rfl⟩ | ⟨rfl, rfl⟩ | ⟨rfl, rfl⟩ | ⟨rfl, rfl⟩ <;>
    rfl

@[simp] theorem extractData_hammingEncode (b : Byte) : extractData (hammingEncode b) = b := by
  refine BitVec.eq_of_getLsbD_eq fun i hi => ?_
  have hplace : ∀ i < 8, ∃ p < 12, (p, i) ∈ dataMap := by decide
  obtain ⟨p, -, h⟩ := hplace i hi
  rw [getLsbD_extractData _ h, pos_hammingEncode_data b h]

theorem hammingEncode_injective {a b : Byte} (h : hammingEncode a = hammingEncode b) : a = b := by
  rw [← extractData_hammingEncode a, h, extractData_hammingEncode]

/-- Settles O4: extraction undoes encoding; the fixed values by evaluation. -/
theorem encodeInjectiveWithFixedValues : Obligations.EncodeInjectiveWithFixedValues :=
  ⟨fun _ _ => hammingEncode_injective, hammingEncode_zero, by decide⟩

/-- Correction inverts the position that the syndrome names. -/
theorem correct_of_syndrome (h : (syndrome r).toNat = p + 1) (hp : p < 12) : correct r = flipPos r p := by
  have hnamed : ¬ (syndrome r = 0 ∨ 12 < (syndrome r).toNat) := by
    rintro (h0 | h12)
    · rw [h0] at h
      exact absurd h (Nat.succ_ne_zero p).symm
    · omega
  rw [correct, if_neg hnamed, h, Nat.add_sub_cancel]

theorem correct_flipPos_hammingEncode (b : Byte) (hp : p < 12) : correct (flipPos (hammingEncode b) p) = hammingEncode b := by
  rw [correct_of_syndrome (syndrome_flipPos_hammingEncode b hp) hp, flipPos_flipPos]

/-- Settles O6: the syndrome names the inverted position, and inverting it again gives the codeword back. -/
theorem singleInversionCorrected : Obligations.SingleInversionCorrected := by
  refine ⟨fun _ => rfl, fun b => ⟨extractData_hammingEncode b, fun p => ?_⟩⟩
  have hcorrect := correct_flipPos_hammingEncode b p.isLt
  exact ⟨hcorrect, by rw [hcorrect, extractData_hammingEncode]⟩

/-! Distance: two single bits have different syndromes, so no word but 0 with fewer than 3 ones has syndrome 0 (R91). -/

theorem syndrome_singleBit_injective {i j : Nat} (hi : i < 12) (hj : j < 12)
    (h : syndrome (1#12 <<< i) = syndrome (1#12 <<< j)) : i = j := by
  have hnum := congrArg BitVec.toNat h
  rw [syndrome_singleBit hi, syndrome_singleBit hj] at hnum
  omega

/-- The integer bits of a word that are 1, whose number is its weight. -/
def setBits (w : Codeword) : List Nat := (List.range 12).filter w.getLsbD

theorem weight_eq_length_setBits (w : Codeword) : weight w = (setBits w).length := rfl

theorem nodup_setBits (w : Codeword) : (setBits w).Nodup := List.nodup_range.filter _

theorem lt_of_mem_setBits {i : Nat} (h : i ∈ setBits w) : i < 12 :=
  List.mem_range.mp (List.mem_of_mem_filter h)

theorem eq_foldl_of_setBits (w : Codeword) : w = (setBits w).foldl (fun v i => v ^^^ 1#12 <<< i) 0#12 := by
  rw [setBits, List.foldl_filter]
  exact eq_foldl_setBits w

/-- A nonzero word that passes every check has at least 3 ones: the syndrome of a single bit is not 0, and those of two bits
differ. -/
theorem three_le_weight (hw : w ≠ 0#12) (hs : syndrome w = 0#4) : 3 ≤ weight w := by
  have hsum := eq_foldl_of_setBits w
  have hnodup := nodup_setBits w
  have hlt := fun i => lt_of_mem_setBits (w := w) (i := i)
  rw [weight_eq_length_setBits]
  match hones : setBits w with
  | [] => exact absurd (by rw [hsum, hones]; rfl) hw
  | [i] =>
    have hi : i < 12 := hlt i (by simp [hones])
    rw [hones, List.foldl_cons, List.foldl_nil, BitVec.zero_xor] at hsum
    have hnum := syndrome_singleBit hi
    rw [← hsum, hs, BitVec.toNat_zero] at hnum
    omega
  | [i, j] =>
    have hi : i < 12 := hlt i (by simp [hones])
    have hj : j < 12 := hlt j (by simp [hones])
    rw [hones, List.foldl_cons, List.foldl_cons, List.foldl_nil, BitVec.zero_xor] at hsum
    rw [hsum, syndrome_xor, BitVec.xor_eq_zero_iff] at hs
    rw [hones, syndrome_singleBit_injective hi hj hs] at hnodup
    simp at hnodup
  | _ :: _ :: _ :: _ => simp

theorem three_le_weight_hammingEncode (h : hammingEncode b ≠ 0#12) : 3 ≤ weight (hammingEncode b) :=
  three_le_weight h (syndrome_hammingEncode b)

theorem hammingEncode_distance {a b : Byte} (h : a ≠ b) : 3 ≤ weight (hammingEncode a ^^^ hammingEncode b) := by
  refine three_le_weight (fun hxor => h (hammingEncode_injective (BitVec.xor_eq_zero_iff.mp hxor))) ?_
  rw [syndrome_xor, syndrome_hammingEncode, syndrome_hammingEncode, BitVec.xor_self]

theorem syndrome_two_flips_ne_zero (b : Byte) (hp : p < 12) (hq : q < 12) (h : p ≠ q) :
    syndrome (flipPos (flipPos (hammingEncode b) p) q) ≠ 0#4 := by
  rw [syndrome_flipPos, syndrome_flipPos, syndrome_hammingEncode, BitVec.zero_xor, Ne, BitVec.xor_eq_zero_iff]
  intro hsame
  have hbits := syndrome_singleBit_injective (by omega) (by omega) hsame
  omega

/-- Settles O8: a difference of codewords passes every check, so it has 3 ones or more; inverting positions 0 and 1 gives the
syndrome 1 ^ 2 = 3 of position 2. -/
theorem minimumDistanceThree : Obligations.MinimumDistanceThree := by
  refine ⟨fun _ _ => hammingEncode_distance, fun _ => three_le_weight_hammingEncode, by decide, by decide,
    fun b p q h => syndrome_two_flips_ne_zero b p.isLt q.isLt (Fin.val_ne_of_ne h), 0x00, 0, 1, 2, ?_⟩
  decide

end Sys2Proof.Machine
end

section
/-! The Encoder's command (40_encoder.md R87): the word that selects it, and what it does where the checks pass and where they do
not. -/

namespace Sys2Proof

/-- With the Encoder's OPC a word is legal where IMM has nothing but the byte (30_encoding.md R73, R74). -/
theorem wordLegal_of_encode_opc {w : CmdWord} (h : opcField w = 0x2) :
    wordLegal w = ((immField w).extractLsb' 8 4 == 0#4) := by
  rw [wordLegal, h]
  rfl

theorem decode_of_encode_opc {w : CmdWord} (h : opcField w = 0x2) :
    decode w
      = if (immField w).extractLsb' 8 4 = 0#4 then some (.encode ((immField w).extractLsb' 0 8)) else none := by
  split
  case isTrue himm =>
    have hlegal : wordLegal w = true := by rw [wordLegal_of_encode_opc h, himm]; rfl
    obtain ⟨o, ho⟩ := exists_selectedBy_of_wordLegal hlegal
    obtain rfl : o = .encode := Op.opcField_matchBits_injective ((Op.opcField_of_selectedBy ho).symm.trans h)
    refine decode_eq_some.mpr ⟨.encode, ho, congrArg Instr.encode ?_⟩
    exact (BitVec.extractLsb'_extractLsb'_of_le (by decide)).symm
  case isFalse himm =>
    rw [decode_eq_none, wordLegal_of_encode_opc h]
    exact beq_eq_false_iff_ne.mpr himm

end Sys2Proof

namespace Sys2Proof.Machine

variable {s t : State} {selected : Option Op} {run : State → Host.Outcome State Fault Refusal}

/-! The checks: a busy block fails the first, and an idle one fails the second on an illegal word (60_exceptions.md R148). -/

theorem State.check_of_busy (h : s.busy = true) : s.check selected = some .busyViolation :=
  if_pos h

theorem State.check_none_of_idle (h : s.busy = false) : s.check none = some .illegalCommand := by
  simp [State.check, h]

theorem State.check_encode_of_idle (h : s.busy = false) : s.check (some .encode) = none :=
  State.check_none.mpr ⟨h, .encode, rfl, nofun, nofun, nofun⟩

theorem State.checked_of_check_some {f : CmdFault} (h : s.check selected = some f) :
    s.checked selected run = .next (s.raise f) :=
  State.checked_next.mpr (.inl ⟨f, h, rfl⟩)

theorem State.checked_of_check_none (h : s.check selected = none) : s.checked selected run = run s := by
  rw [State.checked, h]

theorem State.issue_of_illegal {c : Command} (hd : decode c.word = none) :
    s.issue c = State.checked { s with ports := c.ports } none .next := by
  rw [State.issue, hd]

/-! ENCODE. -/

theorem execEncode_of_idle (byte : Byte) (h : s.busy = false) :
    execEncode byte s = .next { s with encResult := some ((hammingEncode byte).setWidth 16) } :=
  State.checked_of_check_none (State.check_encode_of_idle h)

theorem execEncode_of_busy (byte : Byte) (h : s.busy = true) : execEncode byte s = .next (s.raise .busyViolation) :=
  State.checked_of_check_some (State.check_of_busy h)

/-- An illegal word on an idle block is one host move that records its fault (60_exceptions.md R141). -/
theorem step_of_illegal {c : Command} {rest : List HostMove} (hm : s.hostMoves = .command c :: rest)
    (hidle : s.busy = false) (hd : decode c.word = none) :
    step s = .next (State.raise { s with hostMoves := rest, ports := c.ports } .illegalCommand) := by
  rw [step_hostMove hm]
  exact (State.issue_of_illegal hd).trans (State.checked_of_check_some (State.check_none_of_idle hidle))

/-- Settles O9: an idle block passes ENCODE's checks and a busy one fails the first; a word with OPC 2 and more than the byte in IMM
decodes to nothing. -/
theorem encodeCompletes : Obligations.EncodeCompletes := by
  refine ⟨fun s byte h => execEncode_of_idle byte h, fun s byte h => execEncode_of_busy byte h,
    fun w h => decode_of_encode_opc h, fun s c rest hm hidle hopc himm => ?_, by decide⟩
  exact step_of_illegal hm hidle (by rw [decode_of_encode_opc hopc, if_neg himm])

/-- Settles O10: ENCODE was accepted and wrote ENC_RESULT, or its fault was recorded in FAULT. -/
theorem encodeFrame : Obligations.EncodeFrame := by
  intro s t byte h
  rcases exec_next h with ⟨f, -, rfl⟩ | ⟨-, hacc⟩
  · exact ⟨rfl, .inr rfl, fun _ => rfl⟩
  · cases hacc
    exact ⟨rfl, .inl rfl, fun _ => rfl⟩

end Sys2Proof.Machine
end

section
/-! The Transmitter's commands (41_transmitter.md R100 to R112): what each does where the checks pass, what it leaves, and that none
emits a symbol. -/

namespace Sys2Proof.Machine

variable {s t : State}

/-! CONFIGURE. -/

theorem nonPositive_eq_false {v : Signed32} : nonPositive v = false ↔ 0 < v.toInt := by
  simp [nonPositive]

theorem nonPositive_eq_true {v : Signed32} : nonPositive v = true ↔ v.toInt ≤ 0 := by
  simp [nonPositive]

/-- 10 bits hold every duration (10_state.md R31). -/
theorem durationReg_toNat (rate : Signed32) : (durationReg rate).toNat = 1000 / rate.toInt.toNat := by
  have h : durationOf rate ≤ 1000 := Nat.div_le_self ..
  exact (BitVec.toNat_ofNat ..).trans (Nat.mod_eq_of_lt (by omega))

theorem durationReg_of_high_rate {rate : Signed32} (h : 1000 < rate.toInt) : durationReg rate = 0#10 := by
  apply BitVec.eq_of_toNat_eq
  rw [durationReg_toNat]
  exact Nat.div_eq_of_lt (by omega)

theorem State.check_configure_of_idle (hidle : s.busy = false) (hv : s.cfgValid = false) :
    s.check (some .configure) = none :=
  State.check_none.mpr ⟨hidle, .configure, rfl, fun _ => hv, nofun, nofun⟩

/-- An accepted CONFIGURE with a positive rate (41_transmitter.md R100). -/
theorem execConfigure_of_positive_rate (hidle : s.busy = false) (hv : s.cfgValid = false) (hrate : 0 < s.ports.rate.toInt)
    (hc : Params.configurable s.params s.ports.channel = true) :
    execConfigure s = .next
      (State.emit
        { s with
          channel := some s.ports.channel
          bitDuration := some (durationReg s.ports.rate)
          cfgValid := true
          cfgErr := false }
        (.configureAsOutput s.ports.channel)) := by
  rw [execConfigure, State.checked_of_check_none (State.check_configure_of_idle hidle hv), nonPositive_eq_false.mpr hrate, hc]
  rfl

/-- Settles O11: the accepted CONFIGURE, its duration read back from 10 bits. -/
theorem configureCompletes : Obligations.ConfigureCompletes := by
  intro s hidle hv hrate hc
  exact ⟨_, durationReg s.ports.rate, _, execConfigure_of_positive_rate hidle hv hrate hc, durationReg_toNat _,
    durationReg_le _, rfl⟩

/-- Settles O15: CONFIGURE was discarded with its fault, rejected for its rate, or accepted with one event. -/
theorem configureFrame : Obligations.ConfigureFrame := by
  intro s t h
  rcases exec_next h with ⟨f, -, rfl⟩ | ⟨-, hacc⟩
  · exact ⟨rfl, fun _ => rfl, fun _ => rfl, fun htrace => absurd rfl htrace⟩
  · cases hacc with
    | configureRejected => exact ⟨rfl, fun _ => rfl, fun _ => rfl, fun htrace => absurd rfl htrace⟩
    | configured => exact ⟨rfl, fun _ => rfl, fun htrace => by simp at htrace, fun _ => ⟨rfl, rfl⟩⟩

/-! The timed commands. -/

theorem State.check_emitSymbol_of_idle (hidle : s.busy = false) (hv : s.cfgValid = true) :
    s.check (some .emitSymbol) = none :=
  State.check_none.mpr ⟨hidle, .emitSymbol, rfl, nofun, fun _ => hv, nofun⟩

/-- A command with a message passes the checks on an idle configured block with the message within its bound. -/
theorem State.check_transmit_of_idle {o : Op} (ho : Op.takesMessage o = true) (hidle : s.busy = false)
    (hv : s.cfgValid = true) (hbound : ∀ bound, s.params.maxMsgLen = some bound → s.ports.msg.length ≤ bound) :
    s.check (some o) = none :=
  State.check_none.mpr ⟨hidle, o, rfl, fun hconf => by simp [hconf, Op.takesMessage] at ho, fun _ => hv,
    fun _ => Params.tooLong_eq_false.mpr hbound⟩

/-- Settles O16: EMIT_SYMBOL passes the checks. -/
theorem emitSymbolCompletes : Obligations.EmitSymbolCompletes := fun s v hidle hv =>
  show execEmitSymbol v s = _ from State.checked_of_check_none (State.check_emitSymbol_of_idle hidle hv)

/-- Settles O17: TRANSMIT_ONCE passes the checks. -/
theorem transmitOnceCompletes : Obligations.TransmitOnceCompletes := fun s hidle hv hbound =>
  show execTransmitOnce s = _ from State.checked_of_check_none (State.check_transmit_of_idle rfl hidle hv hbound)

/-- An accepted TRANSMIT_REPEATED, by its count (41_transmitter.md R109). -/
theorem execTransmitRepeated_of_idle (hidle : s.busy = false) (hv : s.cfgValid = true)
    (hbound : ∀ bound, s.params.maxMsgLen = some bound → s.ports.msg.length ≤ bound) :
    execTransmitRepeated s =
      if nonPositive s.ports.count then .next s
      else .next (s.startFrames (repeatsAfterFirst s.ports.count) s.params.gapAfterLast) :=
  State.checked_of_check_none (State.check_transmit_of_idle rfl hidle hv hbound)

theorem execTransmitRepeated_of_positive_count (hidle : s.busy = false) (hv : s.cfgValid = true)
    (hbound : ∀ bound, s.params.maxMsgLen = some bound → s.ports.msg.length ≤ bound) (hcount : 0 < s.ports.count.toInt) :
    execTransmitRepeated s
      = .next (s.startFrames (repeatsAfterFirst s.ports.count) s.params.gapAfterLast) := by
  rw [execTransmitRepeated_of_idle hidle hv hbound, nonPositive_eq_false.mpr hcount]
  rfl

theorem repeatsAfterFirst_eq {count : Signed32} (h : 0 < count.toInt) :
    (repeatsAfterFirst count : Int) = count.toInt - 1 :=
  Int.toNat_of_nonneg (by omega)

/-- Settles O18: TRANSMIT_REPEATED passes the checks and goes by the sign of its count. -/
theorem transmitRepeatedCompletes : Obligations.TransmitRepeatedCompletes := by
  refine ⟨fun s hidle hv hbound hcount => ?_, fun s hidle hv hbound hcount => ?_⟩
  · exact ⟨repeatsAfterFirst s.ports.count, repeatsAfterFirst_eq hcount, repeatsAfterFirst_le _,
      execTransmitRepeated_of_positive_count hidle hv hbound hcount⟩
  · exact (execTransmitRepeated_of_idle hidle hv hbound).trans (if_pos (nonPositive_eq_true.mpr hcount))

/-- Settles O19: a timed command was discarded with its fault, or left what its acceptance writes. -/
theorem timedCommandFrame : Obligations.TimedCommandFrame := by
  refine ⟨fun s t v h => ?_, fun s t h => ?_, fun s t h => ?_⟩ <;> rcases exec_next h with ⟨f, -, rfl⟩ | ⟨-, hacc⟩
  · exact ⟨rfl, fun _ => rfl⟩
  · cases hacc
    exact ⟨rfl, fun _ => rfl⟩
  · exact ⟨rfl, .inl rfl⟩
  · cases hacc
    exact ⟨rfl, .inr rfl⟩
  · exact ⟨rfl, .inl rfl⟩
  · cases hacc with
    | repeatedNone => exact ⟨rfl, .inl rfl⟩
    | repeated => exact ⟨rfl, .inr rfl⟩

/-- The one accepted command that emits is CONFIGURE (41_transmitter.md R100, R112). -/
theorem Accepted.trace_eq_or_configure {i : Instr} (h : Accepted s i t) :
    t.trace = s.trace ∨ (i = .configure ∧ t.trace = s.trace ++ [.configureAsOutput s.ports.channel]) := by
  cases h with
  | configured => exact .inr ⟨rfl, rfl⟩
  | configureRejected | encoded | symbol | once | repeatedNone | repeated => exact .inl rfl

/-- Settles O20: a discarded command records its fault alone, and of the accepted ones only CONFIGURE emits. -/
theorem commandsEmitNoSymbols : Obligations.CommandsEmitNoSymbols := by
  refine ⟨fun i s t h => ?_, fun _ _ => ⟨rfl, rfl⟩, fun _ => ⟨rfl, rfl⟩⟩
  rcases exec_next h with ⟨f, -, rfl⟩ | ⟨-, hacc⟩
  · exact .inl rfl
  · exact hacc.trace_eq_or_configure

end Sys2Proof.Machine
end

section
/-! The sequencer's step, phase by phase (41_transmitter.md R113 to R120). -/

namespace Sys2Proof.Machine

variable {s : State} {ch : Channel}

/-- The phases that send a symbol, in which a level step and a sleep step take turns (R114 to R118). -/
def Phase.IsSymbol (p : Phase) : Prop := p = .single ∨ p = .pre ∨ p = .data ∨ p = .post

theorem Phase.IsSymbol.ne_idle {p : Phase} (h : p.IsSymbol) : p ≠ .idle := by
  rcases h with rfl | rfl | rfl | rfl <;> decide

/-- A busy block is in a symbol or in a gap. -/
theorem Phase.isSymbol_or_gap {p : Phase} (h : p ≠ .idle) : p.IsSymbol ∨ p = .gap ∨ p = .tailGap := by
  cases p <;> simp_all [Phase.IsSymbol]

/-! What a fitting position holds, phase by phase (10_state.md R30). -/

theorem State.PositionOk.of_idle (h : s.PositionOk) (hp : s.phase = .idle) :
    s.k = 0 ∧ s.rep = 0 ∧ s.sub = .level ∧ s.trail = false := by
  simpa only [State.PositionOk, hp] using h

theorem State.PositionOk.of_single (h : s.PositionOk) (hp : s.phase = .single) :
    s.k = 0 ∧ s.rep = 0 ∧ s.trail = false ∧ s.emitV.isSome = true := by
  simpa only [State.PositionOk, hp] using h

theorem State.PositionOk.of_pre (h : s.PositionOk) (hp : s.phase = .pre) : s.k ≤ 7 ∧ s.ci = 0 := by
  simpa only [State.PositionOk, hp] using h

theorem State.PositionOk.of_data (h : s.PositionOk) (hp : s.phase = .data) :
    s.k ≤ 11 ∧ ∃ b, s.msgRead s.ci = some b ∧ s.cw = some (hammingEncode b) := by
  simpa only [State.PositionOk, hp] using h

theorem State.PositionOk.of_post (h : s.PositionOk) (hp : s.phase = .post) : s.k ≤ 7 ∧ s.ci = s.msg.length := by
  simpa only [State.PositionOk, hp] using h

theorem State.PositionOk.of_gap (h : s.PositionOk) (hp : s.phase = .gap) : s.k = 0 ∧ s.sub = .level ∧ 0 < s.rep := by
  simpa only [State.PositionOk, hp] using h

theorem State.PositionOk.of_tailGap (h : s.PositionOk) (hp : s.phase = .tailGap) :
    s.k = 0 ∧ s.sub = .level ∧ s.rep = 0 ∧ s.trail = true := by
  simpa only [State.PositionOk, hp] using h

/-! The level step (R114): the level of each phase's symbol, its register written. -/

theorem State.symbolLevel_single {v : Bool} (hp : s.phase = .single) (he : s.emitV = some v)
    (run : State → Bool → Host.Outcome State Fault Refusal) : s.symbolLevel run = run s v := by
  simp [State.symbolLevel, State.readRegister, hp, he]

theorem State.symbolLevel_data {w : Codeword} (hp : s.phase = .data) (hw : s.cw = some w)
    (run : State → Bool → Host.Outcome State Fault Refusal) : s.symbolLevel run = run s (pos w s.k) := by
  simp [State.symbolLevel, State.readRegister, hp, hw]

theorem State.symbolLevel_marker (hp : s.phase = .pre ∨ s.phase = .post)
    (run : State → Bool → Host.Outcome State Fault Refusal) : s.symbolLevel run = run s (markerBit s.k) := by
  rcases hp with hp | hp <;> simp [State.symbolLevel, hp]

theorem State.blockStep_of_symbolLevel {v : Bool} (hp : s.phase ≠ .idle) (hs : s.sleepsNext = false)
    (hc : s.channel = some ch) (hv : ∀ run, s.symbolLevel run = run s v) :
    s.blockStep = .next { s.emit (.setLevel ch v) with sub := .wait } := by
  rw [State.blockStep_of_level hp hs, State.levelStep_of_channel hc, hv]

theorem State.blockStep_of_symbol_level {v : Bool} (hp : s.phase.IsSymbol) (hs : s.sub = .level)
    (hc : s.channel = some ch) (hv : ∀ run, s.symbolLevel run = run s v) :
    s.blockStep = .next { s.emit (.setLevel ch v) with sub := .wait } :=
  State.blockStep_of_symbolLevel hp.ne_idle (by rw [State.sleepsNext_of_symbol hp, hs]; rfl) hc hv

/-- Settles O23: the level step with the level of each phase; position `K` of the codeword is its bit `11 - K`. -/
theorem levelStepEmitsSymbol : Obligations.LevelStepEmitsSymbol := by
  intro s ch hc hs
  refine ⟨fun v hp he => ?_, fun hp => ?_, fun w hp hw hk => ?_⟩
  · exact State.blockStep_of_symbol_level (.inl hp) hs hc (State.symbolLevel_single hp he)
  · have hsym : s.phase.IsSymbol := hp.elim (fun hpre => .inr (.inl hpre)) fun hpost => .inr (.inr (.inr hpost))
    exact State.blockStep_of_symbol_level hsym hs hc (State.symbolLevel_marker hp)
  · have hbit : pos w s.k = w.getLsbD (11 - s.k) := pos_eq_testBit (by omega)
    rw [← hbit]
    exact State.blockStep_of_symbol_level (.inr (.inr (.inl hp))) hs hc (State.symbolLevel_data hp hw)

/-! The sleep step: its length, then the updates of each phase. -/

/-- The length of the sleep that comes next, for a bit duration (R115 to R120). -/
def State.nextSleep (s : State) (dur : Nat) : Nat :=
  match s.phase with
  | .gap | .tailGap => s.params.gapMs
  | .idle | .single | .pre | .data | .post => dur

theorem State.nextSleep_of_symbol {dur : Nat} (hp : s.phase.IsSymbol) :
    s.nextSleep dur = dur := by
  rcases hp with hp | hp | hp | hp <;> simp [State.nextSleep, hp]

theorem State.sleepLength_written {d : BitVec 10} (hd : s.bitDuration = some d)
    (run : State → Nat → Host.Outcome State Fault Refusal) : s.sleepLength run = run s (s.nextSleep d.toNat) := by
  cases hp : s.phase <;> simp [State.sleepLength, State.nextSleep, State.readRegister, hp, hd]

theorem State.blockStep_of_sleepLength {ms : Nat} (hs : s.sleepsNext = true) (hl : ∀ run, s.sleepLength run = run s ms) :
    s.blockStep = .next (s.emit (.sleep ms)).afterSleep := by
  have hp : s.phase ≠ .idle := fun hp => by simp [State.sleepsNext, hp] at hs
  rw [State.blockStep_of_sleep hp hs, State.sleepStep, hl]

/-- A symbol's sleep step (R115 to R118). -/
theorem State.blockStep_of_symbol_wait {d : BitVec 10}
    (hp : s.phase.IsSymbol) (hs : s.sub = .wait) (hd : s.bitDuration = some d) :
    s.blockStep = .next (s.emit (.sleep d.toNat)).afterSleep := by
  refine State.blockStep_of_sleepLength (by rw [State.sleepsNext_of_symbol hp, hs]; rfl) fun run => ?_
  rw [State.sleepLength_written hd, State.nextSleep_of_symbol hp]

/-- A gap's sleep step, which needs no bit duration (R119, R120). -/
theorem State.blockStep_of_gap (hp : s.phase = .gap ∨ s.phase = .tailGap) :
    s.blockStep = .next (s.emit (.sleep s.params.gapMs)).afterSleep := by
  refine State.blockStep_of_sleepLength ?_ fun run => ?_
  all_goals rcases hp with hp | hp <;> simp [State.sleepsNext, State.sleepLength, hp]

theorem State.afterSleep_single (hp : s.phase = .single) : s.afterSleep = { s with sub := .level, phase := .idle } := by
  simp [State.afterSleep, hp]

theorem State.afterSleep_pre_next (hp : s.phase = .pre) (hk : s.k < 7) :
    s.afterSleep = { s with sub := .level, k := s.k + 1 } := by
  simp [State.afterSleep, hp, hk]

theorem State.afterSleep_pre_last (hp : s.phase = .pre) (hk : 7 ≤ s.k) :
    s.afterSleep = State.nextCodeword { s with sub := .level, k := 0 } := by
  simp [State.afterSleep, hp, hk.not_gt]

theorem State.afterSleep_data_next (hp : s.phase = .data) (hk : s.k < 11) :
    s.afterSleep = { s with sub := .level, k := s.k + 1 } := by
  simp [State.afterSleep, hp, hk]

theorem State.afterSleep_data_last (hp : s.phase = .data) (hk : 11 ≤ s.k) :
    s.afterSleep = State.nextCodeword { s with sub := .level, k := 0, ci := s.ci + 1 } := by
  simp [State.afterSleep, hp, hk.not_gt]

theorem State.afterSleep_post_next (hp : s.phase = .post) (hk : s.k < 7) :
    s.afterSleep = { s with sub := .level, k := s.k + 1 } := by
  simp [State.afterSleep, hp, hk]

theorem State.afterSleep_post_last (hp : s.phase = .post) (hk : 7 ≤ s.k) :
    s.afterSleep = State.endFrame { s with sub := .level, k := 0 } := by
  simp [State.afterSleep, hp, hk.not_gt]

theorem State.afterSleep_gap (hp : s.phase = .gap) :
    s.afterSleep = { s with rep := s.rep - 1, ci := 0, k := 0, sub := .level, phase := .pre } := by
  simp [State.afterSleep, hp]

theorem State.afterSleep_tailGap (hp : s.phase = .tailGap) : s.afterSleep = { s with trail := false, phase := .idle } := by
  simp [State.afterSleep, hp]

/-- A byte's codeword comes next (R115, R116). -/
theorem State.nextCodeword_of_lt (h : s.ci < s.msg.length) :
    s.nextCodeword = { s with cw := some (hammingEncode s.msg[s.ci]), phase := .data } :=
  State.nextCodeword_some (List.getElem?_eq_getElem h)

/-- No byte is left (R115, R116). -/
theorem State.nextCodeword_of_le (h : s.msg.length ≤ s.ci) : s.nextCodeword = { s with phase := .post } :=
  State.nextCodeword_none (List.getElem?_eq_none h)

theorem State.afterSleep_pre_byte (hp : s.phase = .pre) (hk : 7 ≤ s.k) (h : s.ci < s.msg.length) :
    s.afterSleep = { s with sub := .level, k := 0, cw := some (hammingEncode s.msg[s.ci]), phase := .data } := by
  rw [State.afterSleep_pre_last hp hk]
  exact State.nextCodeword_of_lt (s := { s with sub := .level, k := 0 }) h

theorem State.afterSleep_pre_end (hp : s.phase = .pre) (hk : 7 ≤ s.k) (h : s.msg.length ≤ s.ci) :
    s.afterSleep = { s with sub := .level, k := 0, phase := .post } := by
  rw [State.afterSleep_pre_last hp hk]
  exact State.nextCodeword_of_le h

theorem State.afterSleep_data_byte (hp : s.phase = .data) (hk : 11 ≤ s.k) (h : s.ci + 1 < s.msg.length) :
    s.afterSleep = { s with sub := .level, k := 0, ci := s.ci + 1, cw := some (hammingEncode s.msg[s.ci + 1]) } := by
  rw [State.afterSleep_data_last hp hk, hp]
  exact State.nextCodeword_of_lt (s := { s with phase := .data, sub := .level, k := 0, ci := s.ci + 1 }) h

theorem State.afterSleep_data_end (hp : s.phase = .data) (hk : 11 ≤ s.k) (h : s.msg.length ≤ s.ci + 1) :
    s.afterSleep = { s with sub := .level, k := 0, ci := s.ci + 1, phase := .post } := by
  rw [State.afterSleep_data_last hp hk]
  exact State.nextCodeword_of_le h

/-- The end of a frame writes PHASE alone (R117). -/
theorem State.endFrame_eq (s : State) :
    s.endFrame = { s with phase := if 0 < s.rep then .gap else if s.trail = true then .tailGap else .idle } := by
  ext1 <;> simp [State.endFrame_phase]

/-- Settles O24: CI is 0 in a fitting preamble; the sleep step, then the updates of the preamble. -/
theorem preambleWaitStep : Obligations.PreambleWaitStep := by
  refine ⟨fun s h hp => ?_, fun s d hp hs hd => ?_⟩
  · obtain ⟨-, hci⟩ := h.position.of_pre hp
    exact hci
  · rw [State.blockStep_of_symbol_wait (.inr (.inl hp)) hs hd]
    refine ⟨fun hk => ?_, fun h hk => ?_, fun h hk => ?_⟩
    · exact congrArg _ (State.afterSleep_pre_next hp hk)
    · exact congrArg _ (State.afterSleep_pre_byte (s := s.emit (.sleep d.toNat)) hp hk h)
    · exact congrArg _ (State.afterSleep_pre_end hp hk h)

/-- Settles O25: the sleep step, then the updates of a codeword. -/
theorem codewordWaitStep : Obligations.CodewordWaitStep := by
  intro s d hp hs hd
  rw [State.blockStep_of_symbol_wait (.inr (.inr (.inl hp))) hs hd]
  refine ⟨fun hk => ?_, fun h hk => ?_, fun h hk => ?_⟩
  · exact congrArg _ (State.afterSleep_data_next hp hk)
  · exact congrArg _ (State.afterSleep_data_byte (s := s.emit (.sleep d.toNat)) hp hk h)
  · exact congrArg _ (State.afterSleep_data_end hp hk h)

/-- Settles O26: the sleep step, then the updates of the postamble. -/
theorem postambleWaitStep : Obligations.PostambleWaitStep := by
  intro s d hp hs hd
  rw [State.blockStep_of_symbol_wait (.inr (.inr (.inr hp))) hs hd]
  refine ⟨fun hk => ?_, fun hk => ?_⟩
  · exact congrArg _ (State.afterSleep_post_next hp hk)
  · exact congrArg _ ((State.afterSleep_post_last (s := s.emit (.sleep d.toNat)) hp hk).trans (State.endFrame_eq _))

theorem State.blockStep_single_wait {d : BitVec 10} (hp : s.phase = .single) (hs : s.sub = .wait)
    (hd : s.bitDuration = some d) :
    s.blockStep = .next { s with
      trace := s.trace ++ [.sleep d.toNat], elapsed := s.elapsed + d.toNat, sub := .level, phase := .idle } :=
  (State.blockStep_of_symbol_wait (.inl hp) hs hd).trans (congrArg _ (State.afterSleep_single hp))

/-- Settles O27: the sleep steps of a single symbol and of the gaps; TRAIL, which a trailing gap needs, asks for GAP_AFTER_LAST. -/
theorem singleWaitAndGapSteps : Obligations.SingleWaitAndGapSteps := by
  refine ⟨fun s d => State.blockStep_single_wait, fun s hp => ?_, fun s hp => ?_, fun s h hp => ?_⟩
  · exact (State.blockStep_of_gap (.inl hp)).trans (congrArg _ (State.afterSleep_gap hp))
  · exact (State.blockStep_of_gap (.inr hp)).trans (congrArg _ (State.afterSleep_tailGap hp))
  · obtain ⟨-, -, -, htrail⟩ := h.position.of_tailGap hp
    exact h.trailWanted htrail

/-- Settles O14: 1000 divided by more is 0, and a symbol's sleep of 0 is emitted and takes no time. -/
theorem highRateGivesZeroSleeps : Obligations.HighRateGivesZeroSleeps := by
  refine ⟨fun s hidle hv hrate hc => ?_, fun s hd hs hp => ?_⟩
  · refine ⟨_, execConfigure_of_positive_rate hidle hv (by omega) hc, rfl, rfl, ?_⟩
    exact congrArg some (durationReg_of_high_rate hrate)
  · exact ⟨_, State.blockStep_of_symbol_wait hp hs hd, by simp, by simp⟩

/-- Settles O29: the block's step writes the sequencer's position and the sink's fields alone. -/
theorem sequencerFrame : Obligations.SequencerFrame := by
  intro s t h
  have hframe := (State.blockStep_next h).frame
  refine ⟨hframe, fun a => ?_⟩
  rw [hframe]
  rfl

end Sys2Proof.Machine
end

section
/-! The trace law (41_transmitter.md R121): what the block still owes of its trace is a function of its registers, each step emits the
first event of it, and the block is idle exactly when nothing is owed. -/

namespace Sys2Proof.Machine

variable {s t u : State} {ch : Channel} {dur n : Nat} {d : BitVec 10}

/-! Frames, symbol by symbol (R104 to R110). -/

theorem cwBits_eq (w : Codeword) :
    cwBits w = [w.getLsbD 11, w.getLsbD 10, w.getLsbD 9, w.getLsbD 8, w.getLsbD 7, w.getLsbD 6, w.getLsbD 5, w.getLsbD 4,
      w.getLsbD 3, w.getLsbD 2, w.getLsbD 1, w.getLsbD 0] := rfl

theorem markerSymbols_eq : markerSymbols = [false, true, false, true, false, true, false, true] := rfl

/-- Settles O31: the markers' values and each codeword's bits, most significant first. -/
theorem frameSymbolValues : Obligations.FrameSymbolValues := by
  intro m
  simp only [frameSymbols, markerSymbols_eq, cwBits_eq]

/-- The codewords of a message, in send order (R106). -/
def messageSymbols (m : List Byte) : List Bool := m.flatMap fun b => cwBits (hammingEncode b)

theorem frameSymbols_eq (m : List Byte) : frameSymbols m = markerSymbols ++ (messageSymbols m ++ markerSymbols) :=
  List.append_assoc ..

/-- From position `K` on, the symbol of that position comes first. -/
theorem map_range_drop {f : Nat → Bool} {k : Nat} (h : k < n) :
    ((List.range n).map f).drop k = f k :: ((List.range n).map f).drop (k + 1) := by
  rw [List.drop_eq_getElem_cons (by simpa using h), List.getElem_map, List.getElem_range]

theorem markerSymbols_drop {k : Nat} (h : k ≤ 7) :
    markerSymbols.drop k = markerBit k :: markerSymbols.drop (k + 1) :=
  map_range_drop (Nat.lt_succ_of_le h)

theorem cwBits_drop (w : Codeword) {k : Nat} (h : k ≤ 11) : (cwBits w).drop k = pos w k :: (cwBits w).drop (k + 1) :=
  map_range_drop (Nat.lt_succ_of_le h)

theorem markerSymbols_drop_of_le {k : Nat} (h : 7 ≤ k) : markerSymbols.drop (k + 1) = [] :=
  List.drop_eq_nil_of_le (Nat.succ_le_succ h)

theorem cwBits_drop_of_le (w : Codeword) {k : Nat} (h : 11 ≤ k) : (cwBits w).drop (k + 1) = [] :=
  List.drop_eq_nil_of_le (by rw [cwBits_length]; omega)

theorem messageSymbols_drop {m : List Byte} {i : Nat} (h : i < m.length) :
    messageSymbols (m.drop i) = cwBits (hammingEncode m[i]) ++ messageSymbols (m.drop (i + 1)) := by
  rw [List.drop_eq_getElem_cons h]
  rfl

theorem messageSymbols_drop_of_le {m : List Byte} {i : Nat} (h : m.length ≤ i) : messageSymbols (m.drop i) = [] := by
  rw [List.drop_eq_nil_of_le h]
  rfl

/-! What a trace leaves behind: the time of its sleeps, the level last set. -/

theorem sleepTotal_symbols (symbols : List Bool) :
    sleepTotal (symbols.flatMap (symbolTrace ch dur)) = symbols.length * dur := by
  induction symbols with
  | nil => simp [sleepTotal]
  | cons v vs ih =>
    have hsymbol : sleepTotal (symbolTrace ch dur v) = dur := by simp [sleepTotal, symbolTrace]
    rw [List.flatMap_cons, sleepTotal_append, hsymbol, ih, List.length_cons, Nat.succ_mul, Nat.add_comm]

theorem sleepTotal_frameTrace (m : List Byte) : sleepTotal (frameTrace ch dur m) = (16 + 12 * m.length) * dur := by
  rw [frameTrace, sleepTotal_symbols, frameSymbols_length]

/-- A level set late in a trace is the last, whatever comes before (10_state.md R33). -/
theorem lastLevel_append_of_some (trace : List Event) {more : List Event} {v : Bool} (h : lastLevel more = some v) :
    lastLevel (trace ++ more) = some v := by
  induction more using List.reverseRecOn with
  | nil => exact absurd h nofun
  | append_singleton more e ih =>
    rw [← List.append_assoc]
    cases e with
    | setLevel => rw [lastLevel_append_setLevel] at h ⊢; exact h
    | configureAsOutput => simp at h
    | sleep => rw [lastLevel_append_sleep] at h ⊢; exact ih h

/-- A frame ends with the marker's last symbol, a 1 (R125). -/
theorem lastLevel_frameTrace (m : List Byte) : lastLevel (frameTrace ch dur m) = some true := by
  rw [frameTrace, frameSymbols, List.flatMap_append]
  exact lastLevel_append_of_some _ rfl

theorem lastLevel_repeatedTrace (p : Params) (m : List Byte) (more : Nat) :
    lastLevel (repeatedTrace p ch dur m more) = some true := by
  have hframes : lastLevel (frameTrace ch dur m
      ++ (List.replicate more (Event.sleep p.gapMs :: frameTrace ch dur m)).flatten) = some true := by
    cases more with
    | zero => simpa using lastLevel_frameTrace m
    | succ more =>
      rw [List.replicate_succ', List.flatten_append, List.flatten_singleton]
      refine lastLevel_append_of_some _ (lastLevel_append_of_some _ ?_)
      exact lastLevel_append_of_some [Event.sleep p.gapMs] (lastLevel_frameTrace m)
  unfold repeatedTrace
  split
  · rw [lastLevel_append_sleep, hframes]
  · rw [List.append_nil, hframes]

/-! What is owed (R113 to R120). -/

/-- The symbols still to send of the symbol or frame in progress, the one at position `K` first. -/
def State.symbolsLeft (s : State) : List Bool :=
  match s.phase with
  | .single => s.emitV.toList
  | .pre => markerSymbols.drop s.k ++ (messageSymbols (s.msg.drop s.ci) ++ markerSymbols)
  | .data => (s.cw.elim [] cwBits).drop s.k ++ (messageSymbols (s.msg.drop (s.ci + 1)) ++ markerSymbols)
  | .post => markerSymbols.drop s.k
  | .idle | .gap | .tailGap => []

/-- The gaps and frames still to send after the one in progress (R109, R110). -/
def State.framesLeft (s : State) (ch : Channel) (dur : Nat) : List Event :=
  (List.replicate s.rep (Event.sleep s.params.gapMs :: frameTrace ch dur s.msg)).flatten
    ++ (if s.trail then [.sleep s.params.gapMs] else [])

/-- The events still to emit. Where the symbol's level is set already, only its sleep is left of it. -/
def State.owed (s : State) (ch : Channel) (dur : Nat) : List Event :=
  (s.symbolsLeft.flatMap (symbolTrace ch dur)).drop (if s.sub = .wait then 1 else 0) ++ s.framesLeft ch dur

theorem State.owed_of_level (hs : s.sub = .level) :
    s.owed ch dur = s.symbolsLeft.flatMap (symbolTrace ch dur) ++ s.framesLeft ch dur := by
  simp [State.owed, hs]

theorem State.owed_of_wait {v : Bool} {vs : List Bool} (hs : s.sub = .wait) (h : s.symbolsLeft = v :: vs) :
    s.owed ch dur = .sleep dur :: (vs.flatMap (symbolTrace ch dur) ++ s.framesLeft ch dur) := by
  simp [State.owed, hs, h, symbolTrace]

theorem State.owed_of_no_symbols (h : s.symbolsLeft = []) : s.owed ch dur = s.framesLeft ch dur := by
  simp [State.owed, h]

/-- A command that starts frames owes them all (R106, R110). -/
theorem State.startFrames_owed (rep : Nat) (trail : Bool) :
    (s.startFrames rep trail).owed ch dur
      = frameTrace ch dur s.ports.msg ++ (s.startFrames rep trail).framesLeft ch dur := by
  rw [State.owed_of_level rfl, frameTrace, frameSymbols_eq]
  rfl

/-- An idle block owes nothing. -/
theorem State.PositionOk.owed_of_idle (h : s.PositionOk) (hp : s.phase = .idle) : s.owed ch dur = [] := by
  obtain ⟨-, hrep, -, htrail⟩ := h.of_idle hp
  simp [State.owed, State.symbolsLeft, State.framesLeft, hp, hrep, htrail]

/-- No symbol is left at the end of a frame (R117). -/
theorem State.endFrame_symbolsLeft (s : State) : s.endFrame.symbolsLeft = [] := by
  unfold State.endFrame
  repeat' split
  all_goals rfl

/-- At the end of a marker or a codeword the remaining bytes' codewords and the postamble are left (R115, R116). -/
theorem State.nextCodeword_symbolsLeft (hk : s.k = 0) :
    s.nextCodeword.symbolsLeft = messageSymbols (s.msg.drop s.ci) ++ markerSymbols := by
  rcases Nat.lt_or_ge s.ci s.msg.length with h | h
  · rw [State.nextCodeword_of_lt h, messageSymbols_drop h]
    simp [State.symbolsLeft, hk]
  · rw [State.nextCodeword_of_le h, messageSymbols_drop_of_le h]
    simp [State.symbolsLeft, hk]

/-- In a symbol's phase a symbol is left, and its level is the level step's (R114). -/
theorem State.PositionOk.symbolsLeft_cons (h : s.PositionOk) (hp : s.phase.IsSymbol) :
    ∃ v, s.symbolsLeft = v :: s.symbolsLeft.tail ∧ ∀ run, s.symbolLevel run = run s v := by
  rcases hp with hp | hp | hp | hp
  · obtain ⟨-, -, -, he⟩ := h.of_single hp
    obtain ⟨v, he⟩ := Option.isSome_iff_exists.mp he
    exact ⟨v, by simp [State.symbolsLeft, hp, he], State.symbolLevel_single hp he⟩
  · obtain ⟨hk, -⟩ := h.of_pre hp
    exact ⟨markerBit s.k, by simp [State.symbolsLeft, hp, markerSymbols_drop hk], State.symbolLevel_marker (.inl hp)⟩
  · obtain ⟨hk, b, -, hw⟩ := h.of_data hp
    exact ⟨_, by simp [State.symbolsLeft, hp, hw, cwBits_drop _ hk], State.symbolLevel_data hp hw⟩
  · obtain ⟨hk, -⟩ := h.of_post hp
    exact ⟨markerBit s.k, by simp [State.symbolsLeft, hp, markerSymbols_drop hk], State.symbolLevel_marker (.inr hp)⟩

/-- A symbol's sleep takes that symbol off those left (R115 to R118). -/
theorem State.PositionOk.afterSleep_symbolsLeft (h : s.PositionOk) (hp : s.phase.IsSymbol) :
    s.afterSleep.symbolsLeft = s.symbolsLeft.tail := by
  rcases hp with hp | hp | hp | hp
  · obtain ⟨-, -, -, he⟩ := h.of_single hp
    obtain ⟨v, he⟩ := Option.isSome_iff_exists.mp he
    rw [State.afterSleep_single hp]
    simp [State.symbolsLeft, hp, he]
  · obtain ⟨hk, -⟩ := h.of_pre hp
    rcases Nat.lt_or_ge s.k 7 with hlt | hge
    · rw [State.afterSleep_pre_next hp hlt]
      simp [State.symbolsLeft, hp, markerSymbols_drop hk]
    · rw [State.afterSleep_pre_last hp hge, State.nextCodeword_symbolsLeft rfl]
      simp [State.symbolsLeft, hp, markerSymbols_drop hk, markerSymbols_drop_of_le hge]
  · obtain ⟨hk, b, -, hw⟩ := h.of_data hp
    rcases Nat.lt_or_ge s.k 11 with hlt | hge
    · rw [State.afterSleep_data_next hp hlt]
      simp [State.symbolsLeft, hp, hw, cwBits_drop _ hk]
    · rw [State.afterSleep_data_last hp hge, State.nextCodeword_symbolsLeft rfl]
      simp [State.symbolsLeft, hp, hw, cwBits_drop _ hk, cwBits_drop_of_le _ hge]
  · obtain ⟨hk, -⟩ := h.of_post hp
    rcases Nat.lt_or_ge s.k 7 with hlt | hge
    · rw [State.afterSleep_post_next hp hlt]
      simp [State.symbolsLeft, hp, markerSymbols_drop hk]
    · rw [State.afterSleep_post_last hp hge, State.endFrame_symbolsLeft]
      simp [State.symbolsLeft, hp, markerSymbols_drop hk, markerSymbols_drop_of_le hge]

/-- A symbol's sleep leaves the frames that follow, and the next symbol's level comes next (R115 to R118). -/
theorem State.afterSleep_of_symbol (hp : s.phase.IsSymbol) :
    s.afterSleep.sub = .level ∧ s.afterSleep.rep = s.rep ∧ s.afterSleep.trail = s.trail := by
  rcases hp with hp | hp | hp | hp <;> simp only [State.afterSleep, hp]
  · simp
  all_goals split <;> simp

theorem State.PositionOk.afterSleep_owed (h : s.PositionOk) (hp : s.phase.IsSymbol) :
    s.afterSleep.owed ch dur = s.symbolsLeft.tail.flatMap (symbolTrace ch dur) ++ s.framesLeft ch dur := by
  obtain ⟨hsub, hrep, htrail⟩ := State.afterSleep_of_symbol hp
  have hframes : s.afterSleep.framesLeft ch dur = s.framesLeft ch dur := by
    simp [State.framesLeft, hrep, htrail]
  rw [State.owed_of_level hsub, h.afterSleep_symbolsLeft hp, hframes]

/-- A gap's sleep is owed before the next frame and all that follows it (R119). -/
theorem State.PositionOk.owed_of_gap (h : s.PositionOk) (hp : s.phase = .gap) :
    s.owed ch dur = .sleep s.params.gapMs :: s.afterSleep.owed ch dur := by
  obtain ⟨-, -, hrep⟩ := h.of_gap hp
  obtain ⟨rep, hrep⟩ := Nat.exists_eq_add_one_of_ne_zero hrep.ne'
  rw [State.owed_of_no_symbols (by simp [State.symbolsLeft, hp]), State.afterSleep_gap hp, State.owed_of_level rfl]
  simp [State.framesLeft, State.symbolsLeft, frameTrace, frameSymbols_eq, hrep, List.replicate_succ]

/-- The trailing gap's sleep is the last event owed (R120). -/
theorem State.PositionOk.owed_of_tailGap (h : s.PositionOk) (hp : s.phase = .tailGap) :
    s.owed ch dur = .sleep s.params.gapMs :: s.afterSleep.owed ch dur := by
  obtain ⟨-, -, hrep, htrail⟩ := h.of_tailGap hp
  rw [State.afterSleep_tailGap hp]
  simp [State.owed, State.framesLeft, State.symbolsLeft, hp, hrep, htrail]

/-! One step emits the first event owed. -/

/-- The step of a busy block: the first event owed is emitted, and of the other fields only the sequencer's position changes. -/
theorem State.PositionOk.blockStep_owed (h : s.PositionOk) (hp : s.phase ≠ .idle) (hc : s.channel = some ch)
    (hd : s.bitDuration = some d) :
    ∃ e u, s.blockStep = .next u ∧ s.owed ch d.toNat = e :: u.owed ch d.toNat ∧ u.PositionOk
      ∧ u = { s.emit e with
          phase := u.phase, k := u.k, ci := u.ci, cw := u.cw, rep := u.rep, sub := u.sub, trail := u.trail } := by
  rcases Phase.isSymbol_or_gap hp with hsym | hgap
  · obtain ⟨v, hleft, hv⟩ := h.symbolsLeft_cons hsym
    cases hs : s.sub with
    | level =>
      have hnext : s.sleepsNext = false := by rw [State.sleepsNext_of_symbol hsym, hs]; rfl
      refine ⟨.setLevel ch v, _, State.blockStep_of_symbol_level hsym hs hc hv, ?_, h.waiting hp hnext, rfl⟩
      rw [State.owed_of_level hs, hleft]
      exact congrArg _ (State.owed_of_wait (s := { s.emit (.setLevel ch v) with sub := .wait }) rfl hleft).symm
    | wait =>
      refine ⟨.sleep d.toNat, _, State.blockStep_of_symbol_wait hsym hs hd, ?_, ?_, State.afterSleep_frame _⟩
      · rw [State.owed_of_wait hs hleft]
        exact congrArg _ (State.PositionOk.afterSleep_owed (s := s.emit (.sleep d.toNat)) h hsym).symm
      · exact State.PositionOk.afterSleep (s := s.emit (.sleep d.toNat)) h
  · refine ⟨.sleep s.params.gapMs, _, State.blockStep_of_gap hgap, ?_, ?_, State.afterSleep_frame _⟩
    · rcases hgap with hp | hp
      · exact State.PositionOk.owed_of_gap (s := s.emit (.sleep s.params.gapMs)) h hp
      · exact State.PositionOk.owed_of_tailGap (s := s.emit (.sleep s.params.gapMs)) h hp
    · exact State.PositionOk.afterSleep (s := s.emit (.sleep s.params.gapMs)) h

/-! Runs with a silent host. -/

theorem core_run_succ {M : Host.Core} {a b : M.State} (h : M.step a = .next b) : M.run (n + 1) a = M.run n b := by
  rw [Host.Core.run, h]

theorem runSteps_succ (h : step s = .next u) : runSteps (n + 1) s = runSteps n u :=
  core_run_succ (M := Sys2Proof.core) h

theorem EndsAfter.of_idle (h : s.busy = false) : EndsAfter s 0 s :=
  ⟨nofun, rfl, h⟩

/-- One more step before a run that ends. -/
theorem EndsAfter.succ (hb : s.busy = true) (hstep : step s = .next u) (h : EndsAfter u n t) : EndsAfter s (n + 1) t := by
  obtain ⟨hbusy, hrun, hidle⟩ := h
  refine ⟨fun j hj => ?_, (runSteps_succ hstep).trans hrun, hidle⟩
  cases j with
  | zero => exact ⟨s, rfl, hb⟩
  | succ j => rw [runSteps_succ hstep]; exact hbusy j (Nat.lt_of_succ_lt_succ hj)

/-- `u` is a state on the way of the operation of `s`: the host is silent, the position fits, `sent` has been emitted since `s` and
`left` is owed. -/
structure State.Sending (s : State) (ch : Channel) (d : BitVec 10) (sent left : List Event) (u : State) : Prop where
  silent : u.hostMoves = []
  channel : u.channel = some ch
  duration : u.bitDuration = some d
  position : u.PositionOk
  owed : u.owed ch d.toNat = left
  trace : u.trace = s.trace ++ sent
  elapsed : u.elapsed = s.elapsed + sleepTotal sent
  line : ∀ v, lastLevel sent = some v → u.line = .level v
  fault : u.fault = s.fault

variable {sent left : List Event} {e : Event}

theorem State.Sending.refl (hm : s.hostMoves = []) (hc : s.channel = some ch) (hd : s.bitDuration = some d)
    (hp : s.PositionOk) : s.Sending ch d [] (s.owed ch d.toNat) s where
  silent := hm
  channel := hc
  duration := hd
  position := hp
  owed := rfl
  trace := (List.append_nil _).symm
  elapsed := rfl
  line := nofun
  fault := rfl

/-- What the sink holds after one more event of those sent. -/
theorem State.sink_emit (helapsed : u.elapsed = s.elapsed + sleepTotal sent)
    (hline : ∀ v, lastLevel sent = some v → u.line = .level v) :
    (u.emit e).elapsed = s.elapsed + sleepTotal (sent ++ [e])
      ∧ ∀ v, lastLevel (sent ++ [e]) = some v → (u.emit e).line = .level v := by
  cases e with
  | setLevel | configureAsOutput => simp [helapsed, sleepTotal]
  | sleep ms => exact ⟨by simp [sleepTotal_append_sleep, helapsed, Nat.add_assoc], by simpa using hline⟩

/-- The next step sends the first event left. -/
theorem State.Sending.step (h : s.Sending ch d sent (e :: left) u) :
    u.busy = true ∧ ∃ t, step u = .next t ∧ s.Sending ch d (sent ++ [e]) left t := by
  have hp : u.phase ≠ .idle := fun hp => by simpa [h.owed] using h.position.owed_of_idle (ch := ch) (dur := d.toNat) hp
  obtain ⟨e', t, hstep, howed, hpos, hframe⟩ := h.position.blockStep_owed hp h.channel h.duration
  rw [h.owed] at howed
  obtain ⟨rfl, rfl⟩ := List.cons.inj howed
  obtain ⟨helapsed, hline⟩ := State.sink_emit (e := e) h.elapsed h.line
  refine ⟨u.busy_eq_true.mpr hp, t, (step_of_silent_host h.silent).trans hstep, ?_⟩
  exact {
    silent := by rw [hframe]; simpa using h.silent
    channel := by rw [hframe]; simpa using h.channel
    duration := by rw [hframe]; simpa using h.duration
    position := hpos
    owed := rfl
    trace := by rw [hframe]; simp [h.trace]
    elapsed := by rw [hframe]; exact helapsed
    line := fun v hv => by rw [hframe]; exact hline v hv
    fault := by rw [hframe]; simpa using h.fault }

/-- Where nothing is left, the block is idle: a busy block's step would have sent an event. -/
theorem State.Sending.idle (h : s.Sending ch d sent [] u) : u.busy = false := by
  by_contra hb
  have hp : u.phase ≠ .idle := u.busy_eq_true.mp (by simpa using hb)
  obtain ⟨e, t, -, howed, -⟩ := h.position.blockStep_owed hp h.channel h.duration
  rw [h.owed] at howed
  exact absurd howed nofun

/-- From there the block sends all that is left, one event a step, and is idle then and not before. -/
theorem State.Sending.ends (h : s.Sending ch d sent left u) :
    ∃ t, EndsAfter u left.length t ∧ s.Sending ch d (sent ++ left) [] t := by
  induction left generalizing sent u with
  | nil => exact ⟨u, .of_idle h.idle, by rwa [List.append_nil]⟩
  | cons e left ih =>
    obtain ⟨hb, u', hstep, hu'⟩ := h.step
    obtain ⟨t, hends, ht⟩ := ih hu'
    exact ⟨t, .succ hb hstep hends, by simpa using ht⟩

/-- The trace law (R121): with a silent host the block emits exactly what it owes, one event a step. -/
theorem State.PositionOk.ends (hp : s.PositionOk) (hm : s.hostMoves = []) (hc : s.channel = some ch)
    (hd : s.bitDuration = some d) :
    ∃ t, EndsAfter s (s.owed ch d.toNat).length t ∧ s.Sending ch d (s.owed ch d.toNat) [] t :=
  (State.Sending.refl hm hc hd hp).ends

/-- Settles O37: an idle block has ended already, and a busy one holds its registers and sends what it owes. -/
theorem operationsRunToCompletion : Obligations.OperationsRunToCompletion := by
  intro s h hm
  cases hb : s.busy with
  | false => exact ⟨0, s, [], .of_idle hb, (List.append_nil _).symm, rfl⟩
  | true =>
    have hregs := h.registersHeld hb
    obtain ⟨ch, hc⟩ := Option.isSome_iff_exists.mp hregs.channel
    obtain ⟨d, hd⟩ := Option.isSome_iff_exists.mp hregs.bitDuration
    obtain ⟨t, hends, ht⟩ := h.position.ends hm hc hd
    exact ⟨_, t, _, hends, ht.trace, rfl⟩

/-- Frames just started are sent to their end. -/
theorem State.startFrames_ends (hm : s.hostMoves = []) (hc : s.channel = some ch) (hd : s.bitDuration = some d)
    {rep : Nat} {trail : Bool} {events : List Event}
    (howed : (s.startFrames rep trail).owed ch d.toNat = events) :
    ∃ t, EndsAfter (s.startFrames rep trail) events.length t ∧ s.Sending ch d events [] t := by
  have hpos : (s.startFrames rep trail).PositionOk := ⟨Nat.zero_le _, rfl⟩
  obtain ⟨t, hends, ht⟩ := hpos.ends hm hc hd
  exact ⟨t, howed ▸ hends, howed ▸ { ht with }⟩

/-- Settles O35: the frame of the message is all that is owed. -/
theorem transmitOnceTrace : Obligations.TransmitOnceTrace := by
  intro s ch d hm hidle hv hc hd hbound
  have howed : (s.startFrames 0 false).owed ch d.toNat = frameTrace ch d.toNat s.ports.msg := by
    rw [State.startFrames_owed]
    exact List.append_nil _
  obtain ⟨t, hends, ht⟩ := State.startFrames_ends hm hc hd howed
  refine ⟨_, t, transmitOnceCompletes s hidle hv hbound, ?_, ht.trace, ht.line _ (lastLevel_frameTrace _), ?_, ht.fault⟩
  · rw [← frameTrace_length]
    exact hends
  · rw [ht.elapsed, sleepTotal_frameTrace]

/-- Settles O36: the repeated trace of the message is all that is owed. -/
theorem transmitRepeatedTrace : Obligations.TransmitRepeatedTrace := by
  intro s ch d more hm hidle hv hc hd hbound hcount
  have hmore : repeatsAfterFirst s.ports.count = more := by
    simp [repeatsAfterFirst, hcount]
  have hexec := execTransmitRepeated_of_positive_count hidle hv hbound (by omega)
  rw [hmore] at hexec
  have howed : (s.startFrames more s.params.gapAfterLast).owed ch d.toNat
      = repeatedTrace s.params ch d.toNat s.ports.msg more := by
    rw [State.startFrames_owed]
    exact (List.append_assoc ..).symm
  obtain ⟨t, hends, ht⟩ := State.startFrames_ends hm hc hd howed
  exact ⟨_, t, hexec, hends, ht.trace, ht.line _ (lastLevel_repeatedTrace ..), ht.elapsed, ht.fault⟩

/-- A single symbol is two steps (R118). -/
theorem State.single_ends {v : Bool} (hm : s.hostMoves = []) (hp : s.phase = .single) (hs : s.sub = .level)
    (he : s.emitV = some v) (hc : s.channel = some ch) (hd : s.bitDuration = some d) :
    ∃ t, EndsAfter s 2 t ∧ t.trace = s.trace ++ [.setLevel ch v, .sleep d.toNat] ∧ t.line = .level v
      ∧ t.elapsed = s.elapsed + d.toNat ∧ t.fault = s.fault := by
  have hsym : s.phase.IsSymbol := .inl hp
  have hlevel : step s = .next { s.emit (.setLevel ch v) with sub := .wait } :=
    (step_of_silent_host hm).trans (State.blockStep_of_symbol_level hsym hs hc (State.symbolLevel_single hp he))
  have hwait : step { s.emit (.setLevel ch v) with sub := .wait }
      = .next { s.emit (.setLevel ch v) with
          trace := s.trace ++ [.setLevel ch v] ++ [.sleep d.toNat], elapsed := s.elapsed + d.toNat
          sub := .level, phase := .idle } :=
    (step_of_silent_host (s := { s.emit (.setLevel ch v) with sub := .wait }) hm).trans
      (State.blockStep_single_wait (s := { s.emit (.setLevel ch v) with sub := .wait }) hp rfl hd)
  have hbusy : s.busy = true := s.busy_eq_true.mpr hsym.ne_idle
  exact ⟨_, .succ hbusy hlevel (.succ hbusy hwait (.of_idle rfl)), List.append_assoc .., rfl, rfl, rfl⟩

/-- Settles O34: the accepted command is a single symbol with the command's level. -/
theorem emitSymbolTrace : Obligations.EmitSymbolTrace := by
  intro s v ch d hm hidle hv hc hd
  obtain ⟨t, ht⟩ := State.single_ends (s := { s with emitV := some v, sub := .level, phase := .single }) hm rfl rfl rfl hc hd
  exact ⟨_, t, emitSymbolCompletes s v hidle hv, ht⟩

end Sys2Proof.Machine
end

section
/-! The line, the time passed and the draws enter no event (41_transmitter.md R124): states that differ only there step alike. -/

namespace Sys2Proof.Machine

variable {s t : State}

theorem State.sameTraffic_iff : s.SameTraffic t ↔ ∃ line elapsed draws, t = { s with line, elapsed, draws } := by
  refine ⟨fun h => ⟨_, _, _, h⟩, ?_⟩
  rintro ⟨line, elapsed, draws, rfl⟩
  rfl

/-- Both stop alike, or both go on in states that differ only in the line, the time and the draws. -/
inductive SameOutcome : Host.Outcome State Fault Refusal → Host.Outcome State Fault Refusal → Prop
  | next {s t : State} (h : s.SameTraffic t) : SameOutcome (.next s) (.next t)
  | fault (f : Fault) : SameOutcome (.fault f) (.fault f)
  | refused (r : Refusal) : SameOutcome (.refused r) (.refused r)

/-! The shared operations keep the likeness. -/

theorem State.SameTraffic.emit (h : s.SameTraffic t) (e : Event) : (s.emit e).SameTraffic (t.emit e) := by
  obtain ⟨line, elapsed, draws, rfl⟩ := State.sameTraffic_iff.mp h
  cases e <;> rfl

theorem State.SameTraffic.nextCodeword (h : s.SameTraffic t) : s.nextCodeword.SameTraffic t.nextCodeword := by
  obtain ⟨line, elapsed, draws, rfl⟩ := State.sameTraffic_iff.mp h
  simp only [State.nextCodeword, State.msgRead]
  cases s.msg[s.ci]? <;> rfl

theorem State.SameTraffic.endFrame (h : s.SameTraffic t) : s.endFrame.SameTraffic t.endFrame := by
  obtain ⟨line, elapsed, draws, rfl⟩ := State.sameTraffic_iff.mp h
  simp only [State.endFrame]
  repeat' split
  all_goals rfl

/-- Two states that differ only there are in the same phase, sleep next alike and hold the same channel. -/
theorem State.SameTraffic.position (h : s.SameTraffic t) :
    t.phase = s.phase ∧ t.sleepsNext = s.sleepsNext ∧ t.channel = s.channel := by
  obtain ⟨line, elapsed, draws, rfl⟩ := State.sameTraffic_iff.mp h
  exact ⟨rfl, rfl, rfl⟩

theorem State.SameTraffic.afterSleep (h : s.SameTraffic t) : s.afterSleep.SameTraffic t.afterSleep := by
  obtain ⟨hphase, -⟩ := h.position
  cases hp : s.phase <;> simp only [State.afterSleep, hphase, hp]
  case idle => exact h
  all_goals obtain ⟨line, elapsed, draws, rfl⟩ := State.sameTraffic_iff.mp h
  case pre =>
    split
    · rfl
    · exact State.SameTraffic.nextCodeword rfl
  case data =>
    split
    · rfl
    · exact State.SameTraffic.nextCodeword rfl
  case post =>
    split
    · rfl
    · exact State.SameTraffic.endFrame rfl
  case single | gap | tailGap => rfl

/-! The block's step, every register it reads being written. -/

/-- The level is read alike (R114). -/
theorem State.SameTraffic.symbolLevel (h : s.SameTraffic t) (hr : s.RegistersHeld) :
    ∃ v, (∀ run, s.symbolLevel run = run s v) ∧ ∀ run, t.symbolLevel run = run t v := by
  cases hp : s.phase
  all_goals obtain ⟨line, elapsed, draws, rfl⟩ := State.sameTraffic_iff.mp h
  case single =>
    obtain ⟨v, he⟩ := Option.isSome_iff_exists.mp (hr.emitV hp)
    exact ⟨v, State.symbolLevel_single hp he, State.symbolLevel_single hp he⟩
  case data =>
    obtain ⟨w, hw⟩ := Option.isSome_iff_exists.mp (hr.cw hp)
    exact ⟨pos w s.k, State.symbolLevel_data hp hw, State.symbolLevel_data hp hw⟩
  all_goals exact ⟨markerBit s.k, by simp [State.symbolLevel, hp], by simp [State.symbolLevel, hp]⟩

/-- The sleep's length is read alike (R115 to R120). -/
theorem State.SameTraffic.sleepLength (h : s.SameTraffic t) (hr : s.RegistersHeld) :
    ∃ ms, (∀ run, s.sleepLength run = run s ms) ∧ ∀ run, t.sleepLength run = run t ms := by
  obtain ⟨line, elapsed, draws, rfl⟩ := State.sameTraffic_iff.mp h
  obtain ⟨d, hd⟩ := Option.isSome_iff_exists.mp hr.bitDuration
  exact ⟨s.nextSleep d.toNat, State.sleepLength_written hd, State.sleepLength_written hd⟩

theorem State.SameTraffic.blockStep (h : s.SameTraffic t) (hi : s.Inv) : SameOutcome s.blockStep t.blockStep := by
  obtain ⟨hphase, hsleeps, hchannel⟩ := h.position
  by_cases hp : s.phase = .idle
  · rw [State.blockStep, if_pos hp, State.blockStep, if_pos (hphase.trans hp)]
    exact .next h
  · have hr := hi.registersHeld (s.busy_eq_true.mpr hp)
    cases hs : s.sleepsNext with
    | false =>
      obtain ⟨ch, hc⟩ := Option.isSome_iff_exists.mp hr.channel
      obtain ⟨v, hv, hv'⟩ := h.symbolLevel hr
      rw [State.blockStep_of_symbolLevel hp hs hc hv,
        State.blockStep_of_symbolLevel (hphase ▸ hp) (hsleeps.trans hs) (hchannel.trans hc) hv']
      exact .next (by rw [State.SameTraffic, h.emit (.setLevel ch v)])
    | true =>
      obtain ⟨ms, hl, hl'⟩ := h.sleepLength hr
      rw [State.blockStep_of_sleepLength hs hl, State.blockStep_of_sleepLength (hsleeps.trans hs) hl']
      exact .next (h.emit (.sleep ms)).afterSleep

theorem State.SameTraffic.resetInSleep (h : s.SameTraffic t) (hi : s.Inv) :
    SameOutcome s.resetInSleep t.resetInSleep := by
  obtain ⟨-, hsleeps, -⟩ := h.position
  cases hs : s.sleepsNext with
  | false =>
    rw [State.resetInSleep, hs, State.resetInSleep, hsleeps, hs]
    obtain ⟨line, elapsed, draws, rfl⟩ := State.sameTraffic_iff.mp h
    exact .next rfl
  | true =>
    have hp : s.phase ≠ .idle := fun hp => by simp [State.sleepsNext, hp] at hs
    obtain ⟨ms, hl, hl'⟩ := h.sleepLength (hi.registersHeld (s.busy_eq_true.mpr hp))
    rw [State.resetInSleep, hs, State.resetInSleep, hsleeps, hs, if_pos rfl, if_pos rfl, hl, hl']
    obtain ⟨line, elapsed, draws, rfl⟩ := State.sameTraffic_iff.mp h
    exact .next rfl

/-! The host's moves. -/

/-- The checks read none of the three, so the command is discarded alike or runs alike (60_exceptions.md R148). -/
theorem State.SameTraffic.checked {selected : Option Op} {run : State → Host.Outcome State Fault Refusal}
    (h : s.SameTraffic t) (hrun : SameOutcome (run s) (run t)) :
    SameOutcome (s.checked selected run) (t.checked selected run) := by
  obtain ⟨line, elapsed, draws, rfl⟩ := State.sameTraffic_iff.mp h
  cases hck : s.check selected with
  | some f =>
    rw [State.checked_of_check_some hck, State.checked_of_check_some (s := { s with line, elapsed, draws }) hck]
    exact .next rfl
  | none =>
    rw [State.checked_of_check_none hck, State.checked_of_check_none (s := { s with line, elapsed, draws }) hck]
    exact hrun

theorem State.SameTraffic.exec (h : s.SameTraffic t) (i : Instr) : SameOutcome (exec i s) (exec i t) := by
  cases i <;>
    simp only [Machine.exec, execConfigure, execEncode, execEmitSymbol, execTransmitOnce, execTransmitRepeated] <;>
    refine h.checked ?_ <;> obtain ⟨line, elapsed, draws, rfl⟩ := State.sameTraffic_iff.mp h
  case configure =>
    dsimp only
    split
    · exact .next rfl
    · split
      · exact .next rfl
      · exact .refused _
  case transmitRepeated =>
    dsimp only
    split
    · exact .next rfl
    · exact .next rfl
  case encode | emitSymbol | transmitOnce => exact .next rfl

theorem State.SameTraffic.issue (h : s.SameTraffic t) (c : Command) : SameOutcome (s.issue c) (t.issue c) := by
  have hports : State.SameTraffic { s with ports := c.ports } { t with ports := c.ports } := by
    obtain ⟨line, elapsed, draws, rfl⟩ := State.sameTraffic_iff.mp h
    rfl
  cases hd : decode c.word with
  | some i =>
    rw [State.issue_of_decode hd, State.issue_of_decode hd]
    exact hports.exec i
  | none =>
    rw [State.issue_of_illegal hd, State.issue_of_illegal hd]
    exact hports.checked (.next hports)

/-- The host's side does not matter to the likeness. -/
theorem State.SameTraffic.withMoves (h : s.SameTraffic t) (moves : List HostMove) :
    State.SameTraffic { s with hostMoves := moves } { t with hostMoves := moves } := by
  obtain ⟨line, elapsed, draws, rfl⟩ := State.sameTraffic_iff.mp h
  rfl

theorem State.SameTraffic.hostReadsEncResult (h : s.SameTraffic t) :
    s.hostReadsEncResult.SameTraffic t.hostReadsEncResult := by
  have hresult : t.encResult = s.encResult := by rw [h]
  cases he : s.encResult with
  | some w =>
    rw [State.hostReadsEncResult_some he, State.hostReadsEncResult_some (hresult.trans he), State.SameTraffic, h]
  | none =>
    rw [State.hostReadsEncResult_none he, State.hostReadsEncResult_none (hresult.trans he), State.SameTraffic, h]

/-- A polling host lets the block step while it is busy (70_reset_and_hazards.md R168). -/
theorem State.hostMove_awaitIdle (s : State) :
    s.hostMove .awaitIdle
      = if s.busy then State.blockStep { s with hostMoves := .awaitIdle :: s.hostMoves } else .next s := rfl

theorem State.SameTraffic.awaitIdle (h : s.SameTraffic t) (hi : s.Inv) :
    SameOutcome (s.hostMove .awaitIdle) (t.hostMove .awaitIdle) := by
  have hbusy : t.busy = s.busy := by rw [h]; rfl
  have hmoves : t.hostMoves = s.hostMoves := by rw [h]
  rw [State.hostMove_awaitIdle, State.hostMove_awaitIdle, hbusy, hmoves]
  split
  · exact (h.withMoves _).blockStep (hi.outside ..)
  · exact .next h

theorem State.SameTraffic.hostMove (h : s.SameTraffic t) (hi : s.Inv) (m : HostMove) :
    SameOutcome (s.hostMove m) (t.hostMove m) := by
  cases m with
  | command c => exact h.issue c
  | resetInSleep => exact h.resetInSleep hi
  | yield => exact h.blockStep hi
  | awaitIdle => exact h.awaitIdle hi
  | readEncResult => exact .next h.hostReadsEncResult
  | reset | readStatus =>
    obtain ⟨line, elapsed, draws, rfl⟩ := State.sameTraffic_iff.mp h
    exact .next rfl

/-- A step is the host's next move or, where it has none, the block's step. -/
theorem State.SameTraffic.step (h : s.SameTraffic t) (hi : s.Inv) : SameOutcome (step s) (step t) := by
  have hmoves : t.hostMoves = s.hostMoves := by rw [h]
  cases hm : s.hostMoves with
  | nil =>
    rw [step_of_silent_host hm, step_of_silent_host (hmoves.trans hm)]
    exact h.blockStep hi
  | cons m rest =>
    rw [step_hostMove hm, step_hostMove (hmoves.trans hm)]
    exact (h.withMoves rest).hostMove (hi.outside ..) m

/-- Settles O45: the two steps answer alike, and the trace is none of the three fields. -/
theorem drawsEnterNoEvent : Obligations.DrawsEnterNoEvent := by
  intro s t hi h
  have hstep := h.step hi
  refine ⟨fun s' hs => ?_, fun f hs => ?_, fun r hs => ?_⟩ <;> rw [hs] at hstep <;>
    generalize step t = outcome at hstep ⊢
  · cases hstep with
    | next h' => exact ⟨_, rfl, h', by rw [h']⟩
  · cases hstep
    rfl
  · cases hstep
    rfl

end Sys2Proof.Machine
end

section
/-! The checks on a command (60_exceptions.md R140 to R149): each failing one discards the command and records its fault, an accepted
command and the block's own step record none, and neither a command nor a read reaches an operation under way. -/

namespace Sys2Proof

/-! The operation a legal word selects, told by its OPC (30_encoding.md R72). -/

variable {w : CmdWord} {o : Op}

theorem exists_decodeOp_of_wordLegal (h : wordLegal w = true) : ∃ o, decodeOp w = some o :=
  (exists_selectedBy_of_wordLegal h).imp fun _ => decodeOp_eq_some.mpr

theorem decode_of_decodeOp (h : decodeOp w = some o) : decode w = some (o.withOperand w) :=
  decode_eq_some.mpr ⟨o, decodeOp_eq_some.mp h, rfl⟩

theorem opcField_of_decodeOp (h : decodeOp w = some o) : opcField w = opcField o.matchBits :=
  Op.opcField_of_selectedBy (decodeOp_eq_some.mp h)

theorem eq_configure_iff_opc (h : decodeOp w = some o) : o = .configure ↔ opcField w = 0x1 := by
  rw [opcField_of_decodeOp h]
  cases o <;> decide

@[simp] theorem Op.op_withOperand (o : Op) (w : CmdWord) : (o.withOperand w).op = o := by
  cases o <;> rfl

end Sys2Proof

namespace Sys2Proof.Machine

variable {s t : State} {f : CmdFault} {o : Op} {c : Command} {rest : List HostMove}

/-! Which operations need a configuration and which take a message, told by OPC (R143, R146). -/

theorem Op.timed_iff_opc (h : decodeOp c.word = some o) :
    Op.timed o = true ↔ opcField c.word = 0x3 ∨ opcField c.word = 0x4 ∨ opcField c.word = 0x5 := by
  rw [opcField_of_decodeOp h]
  cases o <;> decide

theorem Op.takesMessage_iff_opc (h : decodeOp c.word = some o) :
    Op.takesMessage o = true ↔ opcField c.word = 0x4 ∨ opcField c.word = 0x5 := by
  rw [opcField_of_decodeOp h]
  cases o <;> decide

/-! The checks that an idle block's command with a legal word can fail (R143, R145, R146), one after the other. -/

theorem State.check_configure_of_configured (hidle : s.busy = false) (hv : s.cfgValid = true) :
    s.check (some .configure) = some .alreadyConfigured := by
  simp [State.check, hidle, hv]

theorem State.check_timed_of_unconfigured (hidle : s.busy = false) (hv : s.cfgValid = false) (ho : Op.timed o = true) :
    s.check (some o) = some .notConfigured := by
  simp [State.check, hidle, hv, ho]

theorem State.check_of_tooLong (hidle : s.busy = false) (hv : s.cfgValid = true) (ho : Op.takesMessage o = true)
    (hlong : Params.tooLong s.params s.ports.msg = true) : s.check (some o) = some .msgTooLong := by
  have hconf : o ≠ .configure := fun h => by simp [h, Op.takesMessage] at ho
  simp [State.check, hidle, hv, ho, hlong, hconf]

/-- The host's duties are what the checks ask for (R161). -/
theorem CommandOk.check_eq_none (h : CommandOk s c) (ho : decodeOp c.word = some o) :
    State.check { s with hostMoves := rest, ports := c.ports } (some o) = none :=
  State.check_none.mpr ⟨h.idle, o, rfl, fun hc => h.configureOnce ((eq_configure_iff_opc ho).mp hc),
    fun ht => h.configuredFirst ((Op.timed_iff_opc ho).mp ht),
    fun hm => Params.tooLong_eq_false.mpr (h.withinBound ((Op.takesMessage_iff_opc ho).mp hm))⟩

/-! A command the host presents, discarded or accepted. -/

/-- Every command is checked as the operation it is, before its own rule runs (R148). -/
theorem exec_eq_checked (i : Instr) : ∃ run, ∀ s, exec i s = s.checked (some i.op) run := by
  cases i <;> exact ⟨_, fun _ => rfl⟩

theorem exec_of_check_some {i : Instr} (h : s.check (some i.op) = some f) : exec i s = .next (s.raise f) := by
  obtain ⟨run, hrun⟩ := exec_eq_checked i
  rw [hrun, State.checked_of_check_some h]

/-- A failed check discards the command, whether its word selects an operation or none (R144, R148). -/
theorem step_of_check_some {selected : Option Op} (hm : s.hostMoves = .command c :: rest)
    (hsel : decodeOp c.word = selected)
    (hf : State.check { s with hostMoves := rest, ports := c.ports } selected = some f) :
    step s = .next (State.raise { s with hostMoves := rest, ports := c.ports } f) := by
  rw [step_hostMove hm]
  cases selected with
  | none => exact (State.issue_of_illegal (Option.map_eq_none_iff.mpr hsel)).trans (State.checked_of_check_some hf)
  | some o =>
    refine (State.issue_of_decode (decode_of_decodeOp hsel)).trans (exec_of_check_some ?_)
    rwa [Op.op_withOperand]

theorem exec_fault_of_check_none {i : Instr} (hck : s.check (some i.op) = none) (h : exec i s = .next t) :
    t.fault = s.fault := by
  rcases exec_next h with ⟨f, hf, -⟩ | ⟨-, hacc⟩
  · simp [hck] at hf
  · exact hacc.fault_eq

/-- A command that meets the host's duties is decoded and run, and records no fault. -/
theorem CommandOk.step_eq_exec (h : CommandOk s c) (hm : s.hostMoves = .command c :: rest) :
    ∃ i, decode c.word = some i ∧ step s = exec i { s with hostMoves := rest, ports := c.ports }
      ∧ ∀ t, step s = .next t → t.fault = s.fault := by
  obtain ⟨o, ho⟩ := exists_decodeOp_of_wordLegal h.legal
  have hd := decode_of_decodeOp ho
  have hrun : step s = exec (o.withOperand c.word) { s with hostMoves := rest, ports := c.ports } :=
    (step_hostMove hm).trans (State.issue_of_decode hd)
  refine ⟨_, hd, hrun, fun t ht => ?_⟩
  have hck := h.check_eq_none (rest := rest) ho
  rw [← Op.op_withOperand o c.word] at hck
  exact (exec_fault_of_check_none hck (hrun.symm.trans ht) :)

/-- Settles O21: the word's OPC gives the operation it selects, and the first check that operation fails gives the fault. -/
theorem commandChecksInOrder : Obligations.CommandChecksInOrder := by
  intro s c rest hm
  refine ⟨fun hb => ?_, fun hidle hw => ?_, fun hidle hw hopc hv => ?_, fun hidle hw hopc hv => ?_,
    fun bound hidle hw hopc hv hbound hlong => ?_, fun h => h.step_eq_exec hm⟩
  · exact step_of_check_some (f := .busyViolation) hm rfl (State.check_of_busy hb)
  · exact step_of_illegal hm hidle (decode_eq_none.mpr hw)
  all_goals obtain ⟨o, ho⟩ := exists_decodeOp_of_wordLegal hw
  · obtain rfl := (eq_configure_iff_opc ho).mpr hopc
    exact step_of_check_some (f := .alreadyConfigured) hm ho (State.check_configure_of_configured hidle hv)
  · have htimed := (Op.timed_iff_opc ho).mpr hopc
    exact step_of_check_some (f := .notConfigured) hm ho (State.check_timed_of_unconfigured hidle hv htimed)
  · have hmsg := (Op.takesMessage_iff_opc ho).mpr hopc
    have htoo : Params.tooLong s.params c.ports.msg = true := by simpa [Params.tooLong, hbound] using hlong
    exact step_of_check_some (f := .msgTooLong) hm ho (State.check_of_tooLong hidle hv hmsg htoo)

/-- Settles O12: the checks pass, and the rate decides (R147). -/
theorem configureRejectsNonPositiveRate : Obligations.ConfigureRejectsNonPositiveRate := by
  intro s hidle hv hrate
  rw [exec, execConfigure, State.checked_of_check_none (State.check_configure_of_idle hidle hv), nonPositive_eq_true.mpr hrate]
  rfl

/-! An operation under way. -/

/-- A busy block of the invariant sets a level on its channel or sleeps, and reads only registers that are written (R149). -/
theorem State.Inv.blockStep_of_busy (h : s.Inv) (hb : s.busy = true) :
    (∃ ch v, s.channel = some ch ∧ s.blockStep = .next { s.emit (.setLevel ch v) with sub := .wait })
      ∨ ∃ ms, s.blockStep = .next (s.emit (.sleep ms)).afterSleep := by
  have hr := h.registersHeld hb
  cases hs : s.sleepsNext with
  | false =>
    obtain ⟨ch, hc⟩ := Option.isSome_iff_exists.mp hr.channel
    obtain ⟨u, v, -, hv, hu⟩ := s.symbolLevel_eq
    obtain rfl := hu hr.emitV hr.cw
    exact .inl ⟨ch, v, hc, State.blockStep_of_symbolLevel (u.busy_eq_true.mp hb) hs hc hv⟩
  | true =>
    obtain ⟨u, ms, -, hl, hu⟩ := s.sleepLength_eq
    obtain rfl := hu hr.bitDuration
    exact .inr ⟨ms, State.blockStep_of_sleepLength hs hl⟩

/-- What writes `FAULT` is a command or a reset (R149). -/
theorem step_writes_fault (hstep : step s = .next t) (hne : t.fault ≠ s.fault) :
    ∃ m rest, s.hostMoves = m :: rest ∧ ((∃ c, m = .command c) ∨ m = .reset ∨ m = .resetInSleep) := by
  cases step_next hstep with
  | block u moves hu _ hb => subst hu; exact absurd hb.fault_eq hne
  | legalWord c rest i hm => exact ⟨_, rest, hm, .inl ⟨c, rfl⟩⟩
  | illegalWord c rest f hm => exact ⟨_, rest, hm, .inl ⟨c, rfl⟩⟩
  | reset rest hm => exact ⟨_, rest, hm, .inr (.inl rfl)⟩
  | resetInSleep rest hm => exact ⟨_, rest, hm, .inr (.inr rfl)⟩
  | readStatus | readEncResult | awaited => simp at hne

/-- Settles O28: a level step or a sleep step adds its one event, and neither it nor the updates after it touch `FAULT`. -/
theorem nothingFaultsUnderWay : Obligations.NothingFaultsUnderWay := by
  refine ⟨fun s h hb => ?_, fun s hidle => if_pos (s.busy_eq_false.mp hidle), fun s t => step_writes_fault⟩
  rcases h.blockStep_of_busy hb with ⟨ch, v, hc, hstep⟩ | ⟨ms, hstep⟩
  · exact ⟨_, .setLevel ch v, hstep, rfl, rfl, rfl, rfl, .inl ⟨ch, v, hc, rfl⟩⟩
  · exact ⟨_, .sleep ms, hstep, by simp, by simp, by simp, by simp, .inr ⟨ms, rfl⟩⟩

/-- Settles O38: a command fails the first check and leaves its fault alone, and a read leaves its record alone. -/
theorem hostCannotDisturbOperation : Obligations.HostCannotDisturbOperation := by
  intro s t m rest hb hm hmove hstep
  rcases hmove with ⟨c, rfl⟩ | rfl | rfl
  · rw [step_of_check_some hm rfl (State.check_of_busy hb)] at hstep
    cases hstep
    rfl
  · rw [step_hostMove hm] at hstep
    cases hstep
    rfl
  · rw [step_hostMove hm] at hstep
    cases hstep
    rcases State.hostReadsEncResult_eq { s with hostMoves := rest } with ⟨w, -, h⟩ | ⟨-, h⟩
    · rw [h]
    · rw [h]
      rfl

end Sys2Proof.Machine
end

section
/-! The time a transmission takes (70_reset_and_hazards.md R178, R179): each frame its symbols' sleeps, each gap `GAP_MS`. -/

namespace Sys2Proof.Machine

@[simp] theorem sleepTotal_nil : sleepTotal [] = 0 := rfl

theorem sleepTotal_cons_sleep (ms : Nat) (trace : List Event) :
    sleepTotal (.sleep ms :: trace) = ms + sleepTotal trace := by
  simp [sleepTotal]

theorem sleepTotal_replicate_flatten (n : Nat) (trace : List Event) :
    sleepTotal (List.replicate n trace).flatten = n * sleepTotal trace := by
  induction n with
  | zero => simp [sleepTotal]
  | succ n ih =>
    rw [List.replicate_succ, List.flatten_cons, sleepTotal_append, ih, Nat.succ_mul, Nat.add_comm]

/-- A gap stands before every frame but the first, and with `GAP_AFTER_LAST` after the last (R179). -/
theorem sleepTotal_repeatedTrace (p : Params) (ch : Channel) (dur : Nat) (m : List Byte) (more : Nat) :
    sleepTotal (repeatedTrace p ch dur m more)
      = (more + 1) * (16 + 12 * m.length) * dur + (if p.gapAfterLast = true then more + 1 else more) * p.gapMs := by
  rw [repeatedTrace, sleepTotal_append, sleepTotal_append, sleepTotal_replicate_flatten, sleepTotal_cons_sleep,
    sleepTotal_frameTrace]
  split
  · rw [sleepTotal_cons_sleep, sleepTotal_nil]
    ring
  · rw [sleepTotal_nil]
    ring

/-- Settles O33: the sleeps of a frame, then those of the gaps and frames that follow it. -/
theorem frameDurations : Obligations.FrameDurations :=
  ⟨fun _ _ => sleepTotal_frameTrace, sleepTotal_repeatedTrace⟩

end Sys2Proof.Machine
end

section
/-! Reset inside a sleep, and the host that waits (70_reset_and_hazards.md R165, R166, R168). -/

namespace Sys2Proof.Machine

variable {s t : State} {ms : Nat}

/-! The block's next step, sleep or not. -/

theorem State.sleepsNext_of_gap (hp : s.phase = .gap ∨ s.phase = .tailGap) : s.sleepsNext = true := by
  rcases hp with hp | hp <;> simp [State.sleepsNext, hp]

theorem State.sleepLength_of_gap (hp : s.phase = .gap ∨ s.phase = .tailGap)
    (run : State → Nat → Host.Outcome State Fault Refusal) : s.sleepLength run = run s s.params.gapMs := by
  rcases hp with hp | hp <;> simp [State.sleepLength, hp]

theorem State.resetInSleep_of_sleepLength (hs : s.sleepsNext = true) (hl : ∀ run, s.sleepLength run = run s ms) :
    s.resetInSleep = .next (s.emitCutSleep ms).blockReset := by
  rw [State.resetInSleep, if_pos hs, hl]

theorem State.resetInSleep_of_no_sleep (hs : s.sleepsNext = false) : s.resetInSleep = .next s.blockReset := by
  simp [State.resetInSleep, hs]

/-- A symbol's sleep is cut where it takes `BIT_DURATION` (41_transmitter.md R115 to R118). -/
theorem State.resetInSleep_of_symbol {d : BitVec 10} (hp : s.phase.IsSymbol) (hs : s.sub = .wait)
    (hd : s.bitDuration = some d) :
    s.resetInSleep = .next (s.emitCutSleep d.toNat).blockReset := by
  refine State.resetInSleep_of_sleepLength (by rw [State.sleepsNext_of_symbol hp, hs]; rfl) fun run => ?_
  rw [State.sleepLength_written hd, State.nextSleep_of_symbol hp]

theorem State.resetInSleep_of_gap (hp : s.phase = .gap ∨ s.phase = .tailGap) :
    s.resetInSleep = .next (s.emitCutSleep s.params.gapMs).blockReset :=
  State.resetInSleep_of_sleepLength (State.sleepsNext_of_gap hp) (State.sleepLength_of_gap hp)

/-- Settles O54: a symbol's sleep or a gap's is cut, and elsewhere the move is a block reset. -/
theorem resetInSleepAbandons : Obligations.ResetInSleepAbandons := by
  refine ⟨fun s rest ms hm hsleep => ?_, fun s rest hm hnone => ?_⟩ <;> rw [step_hostMove hm]
  · have hcut : State.resetInSleep { s with hostMoves := rest }
        = .next (State.emitCutSleep { s with hostMoves := rest } ms).blockReset := by
      rcases hsleep with ⟨hs, hp, d, hd, rfl⟩ | ⟨hp, rfl⟩
      · exact State.resetInSleep_of_symbol (s := { s with hostMoves := rest }) hp hs hd
      · exact State.resetInSleep_of_gap (s := { s with hostMoves := rest }) hp
    exact ⟨_, hcut, Nat.le_add_right .., Nat.add_le_add_left (Nat.min_le_right ..) _, rfl⟩
  · have hnext : s.sleepsNext = false := by
      rcases hnone with hp | ⟨hs, hp⟩
      · simp [State.sleepsNext, hp]
      · rw [State.sleepsNext_of_symbol hp, hs]
        rfl
    exact State.resetInSleep_of_no_sleep (s := { s with hostMoves := rest }) hnext

/-! The host that waits. -/

theorem BlockStepped.hostMoves_eq (h : BlockStepped s t) : t.hostMoves = s.hostMoves := by
  rw [h.frame]

/-- While it polls, a busy block's step is the step of the state as it is: the poll stays at the head of the moves (log 1). -/
theorem step_awaitIdle_of_busy {rest : List HostMove} (hm : s.hostMoves = .awaitIdle :: rest) (hb : s.busy = true) :
    step s = s.blockStep := by
  have hkept : { s with hostMoves := .awaitIdle :: rest } = s := by rw [← hm]
  rw [step_hostMove hm, State.hostMove_awaitIdle]
  exact (if_pos hb).trans (congrArg State.blockStep hkept)

/-- Settles O60: the poll decides by BUSY, and a yielding host's move is the block's step. -/
theorem waitingHostLetsBlockStep : Obligations.WaitingHostLetsBlockStep := by
  refine ⟨fun s rest => step_awaitIdle_of_busy, fun s t rest hm hb hstep => ?_, fun s rest hm hb => ?_,
    fun s rest => step_hostMove⟩
  · rw [step_awaitIdle_of_busy hm hb] at hstep
    rw [(State.blockStep_next hstep).hostMoves_eq, hm]
  · rw [step_hostMove hm, State.hostMove_awaitIdle]
    exact if_neg (ne_true_of_eq_false hb)

end Sys2Proof.Machine
end

section
/-! Channels that are refused: one the sink cannot make an output, and one that another instance holds (70_reset_and_hazards.md R169,
R175). -/

namespace Sys2Proof.Machine

/-- Settles O13: the checks and the rate pass, and the channel decides (log 5). -/
theorem configureRefusesInvalidChannel : Obligations.ConfigureRefusesInvalidChannel := by
  intro s hidle hv hrate hc
  rw [exec, execConfigure, State.checked_of_check_none (State.check_configure_of_idle hidle hv),
    nonPositive_eq_false.mpr hrate, hc]
  rfl

/-- No two places of a list share a value where the values are without duplicates. -/
theorem index_eq_of_nodup_filterMap {α β : Type} {f : α → Option β} {l : List α} (h : (l.filterMap f).Nodup) {i j : Nat}
    {a a' : α} {b : β} (hi : l[i]? = some a) (hj : l[j]? = some a') (hb : f a = some b) (hb' : f a' = some b) : i = j := by
  have hdiff := List.pairwise_filterMap.mp h
  obtain ⟨hil, rfl⟩ := List.getElem?_eq_some_iff.mp hi
  obtain ⟨hjl, rfl⟩ := List.getElem?_eq_some_iff.mp hj
  rcases Nat.lt_trichotomy i j with hlt | heq | hgt
  · exact absurd rfl (List.pairwise_iff_getElem.mp hdiff i j hil hjl hlt b hb b hb')
  · exact heq
  · exact absurd rfl (List.pairwise_iff_getElem.mp hdiff j i hjl hil hgt b hb' b hb)

theorem System.stepAt_of_shared {sys : System} {n : Fin sys.instances.length} {t : State}
    (hstep : step (sys.stepping n) = .next t) (h : (sys.replaced n t).distinct = false) : sys.stepAt n = .refused .sharedChannel := by
  simp [System.stepAt, hstep, h]

/-- An instance that takes a channel another holds leaves the system not distinct (R175). -/
theorem System.replaced_not_distinct {sys : System} {n : Fin sys.instances.length} {t u : State} {j : Nat} {ch : Channel}
    (ht : t.channel = some ch) (hj : j ≠ n.val) (hu : sys.instances[j]? = some u) (hch : u.channel = some ch) :
    (sys.replaced n t).distinct = false := by
  refine decide_eq_false fun hnodup => hj ?_
  have hother : (sys.instances.set n t)[j]? = some u := (List.getElem?_set_ne hj.symm).trans hu
  exact index_eq_of_nodup_filterMap hnodup hother (List.getElem?_set_self n.isLt) hch ht

/-- Settles O56: the stepping instance and the other hold one channel in the system the step would leave. -/
theorem sharedChannelRefused : Obligations.SharedChannelRefused :=
  fun _ _ _ _ _ _ hstep ht hj hu hch => System.stepAt_of_shared hstep (System.replaced_not_distinct ht hj hu hch)

end Sys2Proof.Machine
end
